-- ==== Sys2Proof/Word.lean ====
section
/-! DEFINITION. The word types of the block: bytes, 16-bit headers and 32-bit data objects (`00_scope.md` R8).
Field extraction, byte order and scaling are not here: they stand in `Decode.lean` and `Machine/Operands.lean`. -/

namespace Sys2Proof

/-- A PHY register value, a FIFO byte, an operation code: an 8-bit unsigned quantity (R8). -/
abbrev Byte := BitVec 8

/-- A message header as one value `H = byte0<<8 | byte1` (R11, R71). -/
abbrev Half := BitVec 16

/-- A 4-byte data object as its little-endian value `W` (R11, R70). -/
abbrev Word32 := BitVec 32

end Sys2Proof
end

