-- ==== Sys2Proof/Syntax.lean ====
section
/-! DEFINITION. The instructions: one constructor of `Instr` per row of the opcode table, with its operands, and the
plain types those operands use. An operation's operands are the ones its rule lists; a wire encoding's operands are the
fields its layout leaves free (`30_encoding.md`). -/

namespace Sys2Proof

/-- The session's role, a configuration input (R3, R9). -/
inductive Role where
  | sink
  | source
deriving DecidableEq, Repr

/-- A detected CC pin: None, CC1 or CC2 (R15, R24). -/
inductive CCPin where
  | none
  | cc1
  | cc2
deriving DecidableEq, Repr

/-- The kind of Start-Of-Packet of a received frame (R32, R106). -/
inductive Sop where
  | primary
  | prime
deriving DecidableEq, Repr

/-- The class of a message: Control when it carries no data object, else Data (R111). -/
inductive MsgClass where
  | control
  | data
deriving DecidableEq, Repr

/-- The names of the two type tables, `Reserved`, and `Unknown(t)` for a type outside its table (R114 to R116). -/
inductive MsgName where
  | reserved
  | goodCrc
  | gotoMin
  | accept
  | reject
  | ping
  | psRdy
  | getSourceCap
  | getSinkCap
  | drSwap
  | prSwap
  | vconnSwap
  | wait
  | softReset
  | dataReset
  | dataResetComplete
  | notSupported
  | getSourceCapExtended
  | getStatus
  | frSwap
  | getPpsStatus
  | getCountryCodes
  | getSinkCapExtended
  | getSourceInfo
  | sourceCapabilities
  | request
  | bist
  | sinkCapabilities
  | batteryStatus
  | alert
  | getCountryInfo
  | enterUsb
  | eprRequest
  | eprMode
  | sourceInfo
  | revision
  | vendorDefined
  | unknown (t : BitVec 5)
deriving DecidableEq, Repr

/-- The detection strategy `FIND_CC` runs (R163). -/
inductive Detect where
  | sink (debug : Bool)
  | source (hostCode : Byte) (debug : Bool)
deriving DecidableEq, Repr

/-- The PDO kinds whose construction is unsupported (R214). -/
inductive PdoKind where
  | battery
  | variablePdo
  | pps
deriving DecidableEq, Repr

/-- The header bits of a message other than the object count and the type, and its SOP kind (R110, R112). -/
structure MsgBits where
  sop : Sop
  extended : BitVec 1
  messageId : BitVec 3
  bit0 : BitVec 1
  revision : BitVec 2
  dataRole : BitVec 1
deriving DecidableEq, Repr

/-- A message as an operand: its header bits, its type index and its data objects. Its object count is the number of
objects; class, name and VDM part follow from these (R203, R206, R207). -/
structure MsgOperand where
  bits : MsgBits
  messageType : BitVec 5
  objects : List Word32
deriving DecidableEq, Repr

/-- A Data message of a known type as an operand: its header bits, its first data object and the others (a Data message
has at least one, R111). -/
structure DataOperand where
  bits : MsgBits
  first : Word32
  others : List Word32
deriving DecidableEq, Repr

/-- The record `BUILD_VDM_HEADER` takes (R218). The fields of the structured form are wider than their encodings, so
that the range checks of R218 can fail. -/
inductive VdmFields where
  | structured (svid : Word32) (version objectPosition commandType command : Byte)
  | unstructured (svid : BitVec 16) (payload : BitVec 15)
deriving DecidableEq, Repr

/-- The fields of a structured VDM header other than the one its row fixes (R122). -/
structure VdmBits where
  svid : BitVec 16
  version : BitVec 4
  objectPosition : BitVec 3
  reserved : BitVec 1
deriving DecidableEq, Repr

/-- The operands of `VDM_DISCOVER_IDENTITY` to `VDM_DP_CONFIGURE`: the header fields of the request that the answer echoes
(R293). R294 to R299 list no operands; that these three are all, and the command type is REQ, is the model's: DESIGN CHOICE, log
37. -/
structure VdmRequest where
  svid : BitVec 16
  version : BitVec 4
  objectPosition : BitVec 3
deriving DecidableEq, Repr

/-- The table's `format` column: which encoding the bits of a row belong to. The formats' words overlap, so a decoder
has to be told which one it reads. -/
inductive Format where
  | op
  | txToken
  | rxMarker
  | header
  | headerControl
  | headerData
  | pdo
  | vdmHeader
  | vdmCommandType
  | vdmCommand
  | rdo
deriving DecidableEq, Repr

/-- One constructor per row of the opcode table. Operands out of the range a rule checks are admitted wherever the rule
raises an error for them. `sinkSendRequest`, `parsePdoList` and `selectPdoForVoltage` take their PDO list as the raw
objects it is parsed from; `sourceAccept` takes the position as the list index `pos - 1`; a profile is the low 30 bits of
its Fixed PDO. -/
inductive Instr where
  /-- `RESET`, R150. -/
  | reset
  /-- `RESET_PD`, R151. -/
  | resetPd
  /-- `POWER_ON`, R152. -/
  | powerOn
  /-- `UNMASK_INT`, R153. -/
  | unmaskInt
  /-- `MEASURE_CC`, R154. -/
  | measureCc (pin : Byte)
  /-- `CURRENT_LEVEL`, R155. -/
  | currentLevel
  /-- `DETECT_SINK`, R156. -/
  | detectSink (debug : Bool)
  /-- `DETECT_SOURCE`, R157. -/
  | detectSource (hostCode : Byte) (debug : Bool)
  /-- `SET_TERMINATION`, R159. -/
  | setTermination (role : Role)
  /-- `SET_ROLE_BITS`, R160. -/
  | setRoleBits (role : Role)
  /-- `SET_HOST_CURRENT`, R161. -/
  | setHostCurrent (code : Byte)
  /-- `CONFIG_PHY`, R162. -/
  | configPhy
  /-- `FIND_CC`, R163. -/
  | findCc (detect : Detect)
  /-- `ENABLE_TX_SWITCH`, R164. -/
  | enableTxSwitch (pin : Byte)
  /-- `FLUSH_RX`, R166. -/
  | flushRx
  /-- `FLUSH_TX`, R167. -/
  | flushTx
  /-- `SET_WAKE`, R170. -/
  | setWake (en : Bool)
  /-- `DECODE_INT`, R171. -/
  | decodeInt (i : Byte)
  /-- `READ_INT`, R172. -/
  | readInt
  /-- `READ_RX_STATE`, R173. -/
  | readRxState
  /-- `READ_FIFO`, R174. -/
  | readFifo (n : Byte)
  /-- `SEND_PACKET`, R176. -/
  | sendPacket (p : List Byte)
  /-- `PARSE_MESSAGE`, R200. -/
  | parseMessage
  /-- `ENCODE_HEADER`, R209. -/
  | encodeHeader (ext n id rev pr dr t : Byte)
  /-- `ENCODE_COMMAND`, R210. -/
  | encodeCommand (command : MsgName) (dataObjects : List Byte) (messageId revision powerRole dataRole : Byte)
  /-- `PARSE_PDO`, R212. -/
  | parsePdo (b4 : Word32)
  /-- `BUILD_FIXED_PDO`, R213. -/
  | buildFixedPdo (v c p f : Word32)
  /-- `BUILD_PDO`, R214. -/
  | buildPdo (kind : PdoKind) (fields : List Byte)
  /-- `PARSE_PDO_LIST`, R216. -/
  | parsePdoList (objs : List Word32)
  /-- `PARSE_VDM_HEADER`, R217. -/
  | parseVdmHeader (b4 : Word32)
  /-- `BUILD_VDM_HEADER`, R218. -/
  | buildVdmHeader (fields : VdmFields) (extraPayload : List Byte)
  /-- `BUILD_VDM_UNSTRUCTURED`, R219. -/
  | buildVdmUnstructured (svid : BitVec 16) (payload : BitVec 15) (extraPayload : List Byte)
  /-- `BUILD_REQUEST`, R220. -/
  | buildRequest (index current : Word32)
  /-- `PARSE_REQUEST`, R221. -/
  | parseRequest (b4 : Word32)
  /-- `TYPE_LOOKUP`, R222. -/
  | typeLookup (cls : MsgClass) (t : BitVec 5)
  /-- `RESET_MSG_ID`, R250. -/
  | resetMsgId
  /-- `NEXT_MSG_ID`, R251. -/
  | nextMsgId
  /-- `SEND_COMMAND`, R252. -/
  | sendCommand (command : MsgName) (dataObjects : List Byte)
  /-- `DRAIN_LOG`, R253. -/
  | drainLog
  /-- `POLL_ITERATION`, R282. -/
  | pollIteration
  /-- `RX_STEP`, R283. -/
  | rxStep
  /-- `DISPATCH`, R284. -/
  | dispatch (m : MsgOperand)
  /-- `INT_STEP`, R286. -/
  | intStep
  /-- `DETACH_CHECK`, R288. -/
  | detachCheck
  /-- `SINK_ON_SOURCE_CAPS`, R290. -/
  | sinkOnSourceCaps (m : DataOperand)
  /-- `SINK_SEND_REQUEST`, R291. -/
  | sinkSendRequest (pdos : List Word32)
  /-- `SINK_ON_ACCEPT`, R292. -/
  | sinkOnAccept (psRdy : Bool) (bits : MsgBits)
  /-- `SINK_ON_VDM`, R293. -/
  | sinkOnVdm (m : DataOperand)
  /-- `VDM_DISCOVER_IDENTITY`, R294. -/
  | vdmDiscoverIdentity (request : VdmRequest)
  /-- `VDM_DISCOVER_SVIDS`, R295. -/
  | vdmDiscoverSvids (request : VdmRequest)
  /-- `VDM_DISCOVER_MODES`, R296. -/
  | vdmDiscoverModes (request : VdmRequest)
  /-- `VDM_ENTER_MODE`, R297. -/
  | vdmEnterMode (request : VdmRequest)
  /-- `VDM_DP_STATUS`, R298. -/
  | vdmDpStatus (request : VdmRequest)
  /-- `VDM_DP_CONFIGURE`, R299. -/
  | vdmDpConfigure (request : VdmRequest)
  /-- `SOURCE_ADVERTISE`, R300. -/
  | sourceAdvertise
  /-- `SOURCE_ON_REQUEST`, R301. -/
  | sourceOnRequest (m : DataOperand)
  /-- `SOURCE_ACCEPT`, R303. -/
  | sourceAccept (index : BitVec 3) (profile : BitVec 30)
  /-- `SOURCE_PS_RDY`, R304. -/
  | sourcePsRdy (profile : BitVec 30) (m : DataOperand)
  /-- `SOURCE_REJECT`, R305. -/
  | sourceReject (pos : BitVec 4)
  /-- `ADV_CADENCE`, R307. -/
  | advCadence
  /-- `ON_SOFT_RESET`, R309. -/
  | onSoftReset
  /-- `SELECT_PDO_FOR_VOLTAGE`, R313. -/
  | selectPdoForVoltage (pdos : List Word32) (volts : Word32)
  /-- `BLOCK_RESET`, R389. -/
  | blockReset
  /-- `SETUP`, R390. -/
  | setup
  /-- `RUN_FLOW`, R391. -/
  | runFlow
  /-- `CANCEL_RECOVER`, R352. -/
  | cancelRecover
  /-- `TOK_SYNC1`, R102. -/
  | tokSync1
  /-- `TOK_SYNC2`, R102. -/
  | tokSync2
  /-- `TOK_PACKSYM`, R103. -/
  | tokPacksym (payload : List Byte)
  /-- `TOK_JAM_CRC`, R104. -/
  | tokJamCrc
  /-- `TOK_EOP`, R104. -/
  | tokEop
  /-- `TOK_TXOFF`, R104. -/
  | tokTxoff
  /-- `TOK_TXON`, R104. -/
  | tokTxon
  /-- `RX_SOP`, R106. -/
  | rxSop
  /-- `RX_SOP_PRIME`, R106. -/
  | rxSopPrime
  /-- `RX_EMPTY_MARKER`, R106. -/
  | rxEmptyMarker
  /-- `HEADER`, R110. -/
  | header (bits : MsgBits) (numDataObjects : BitVec 3) (messageType : BitVec 5)
  /-- `CTRL_RESERVED_0`, R114. -/
  | ctrlReserved0 (bits : MsgBits)
  /-- `CTRL_GOODCRC`, R114. -/
  | ctrlGoodcrc (bits : MsgBits)
  /-- `CTRL_GOTOMIN`, R114. -/
  | ctrlGotomin (bits : MsgBits)
  /-- `CTRL_ACCEPT`, R114. -/
  | ctrlAccept (bits : MsgBits)
  /-- `CTRL_REJECT`, R114. -/
  | ctrlReject (bits : MsgBits)
  /-- `CTRL_PING`, R114. -/
  | ctrlPing (bits : MsgBits)
  /-- `CTRL_PS_RDY`, R114. -/
  | ctrlPsRdy (bits : MsgBits)
  /-- `CTRL_GET_SOURCE_CAP`, R114. -/
  | ctrlGetSourceCap (bits : MsgBits)
  /-- `CTRL_GET_SINK_CAP`, R114. -/
  | ctrlGetSinkCap (bits : MsgBits)
  /-- `CTRL_DR_SWAP`, R114. -/
  | ctrlDrSwap (bits : MsgBits)
  /-- `CTRL_PR_SWAP`, R114. -/
  | ctrlPrSwap (bits : MsgBits)
  /-- `CTRL_VCONN_SWAP`, R114. -/
  | ctrlVconnSwap (bits : MsgBits)
  /-- `CTRL_WAIT`, R114. -/
  | ctrlWait (bits : MsgBits)
  /-- `CTRL_SOFT_RESET`, R114. -/
  | ctrlSoftReset (bits : MsgBits)
  /-- `CTRL_DATA_RESET`, R114. -/
  | ctrlDataReset (bits : MsgBits)
  /-- `CTRL_DATA_RESET_COMPLETE`, R114. -/
  | ctrlDataResetComplete (bits : MsgBits)
  /-- `CTRL_NOT_SUPPORTED`, R114. -/
  | ctrlNotSupported (bits : MsgBits)
  /-- `CTRL_GET_SOURCE_CAP_EXTENDED`, R114. -/
  | ctrlGetSourceCapExtended (bits : MsgBits)
  /-- `CTRL_GET_STATUS`, R114. -/
  | ctrlGetStatus (bits : MsgBits)
  /-- `CTRL_FR_SWAP`, R114. -/
  | ctrlFrSwap (bits : MsgBits)
  /-- `CTRL_GET_PPS_STATUS`, R114. -/
  | ctrlGetPpsStatus (bits : MsgBits)
  /-- `CTRL_GET_COUNTRY_CODES`, R114. -/
  | ctrlGetCountryCodes (bits : MsgBits)
  /-- `CTRL_GET_SINK_CAP_EXTENDED`, R114. -/
  | ctrlGetSinkCapExtended (bits : MsgBits)
  /-- `CTRL_GET_SOURCE_INFO`, R114. -/
  | ctrlGetSourceInfo (bits : MsgBits)
  /-- `DATA_RESERVED_0`, R115. -/
  | dataReserved0 (bits : MsgBits) (numDataObjects : BitVec 3)
  /-- `DATA_SOURCE_CAPABILITIES`, R115. -/
  | dataSourceCapabilities (bits : MsgBits) (numDataObjects : BitVec 3)
  /-- `DATA_REQUEST`, R115. -/
  | dataRequest (bits : MsgBits) (numDataObjects : BitVec 3)
  /-- `DATA_BIST`, R115. -/
  | dataBist (bits : MsgBits) (numDataObjects : BitVec 3)
  /-- `DATA_SINK_CAPABILITIES`, R115. -/
  | dataSinkCapabilities (bits : MsgBits) (numDataObjects : BitVec 3)
  /-- `DATA_BATTERY_STATUS`, R115. -/
  | dataBatteryStatus (bits : MsgBits) (numDataObjects : BitVec 3)
  /-- `DATA_ALERT`, R115. -/
  | dataAlert (bits : MsgBits) (numDataObjects : BitVec 3)
  /-- `DATA_GET_COUNTRY_INFO`, R115. -/
  | dataGetCountryInfo (bits : MsgBits) (numDataObjects : BitVec 3)
  /-- `DATA_ENTER_USB`, R115. -/
  | dataEnterUsb (bits : MsgBits) (numDataObjects : BitVec 3)
  /-- `DATA_EPR_REQUEST`, R115. -/
  | dataEprRequest (bits : MsgBits) (numDataObjects : BitVec 3)
  /-- `DATA_EPR_MODE`, R115. -/
  | dataEprMode (bits : MsgBits) (numDataObjects : BitVec 3)
  /-- `DATA_SOURCE_INFO`, R115. -/
  | dataSourceInfo (bits : MsgBits) (numDataObjects : BitVec 3)
  /-- `DATA_REVISION`, R115. -/
  | dataRevision (bits : MsgBits) (numDataObjects : BitVec 3)
  /-- `DATA_RESERVED_13`, R115. -/
  | dataReserved13 (bits : MsgBits) (numDataObjects : BitVec 3)
  /-- `DATA_RESERVED_14`, R115. -/
  | dataReserved14 (bits : MsgBits) (numDataObjects : BitVec 3)
  /-- `DATA_VENDOR_DEFINED`, R115. -/
  | dataVendorDefined (bits : MsgBits) (numDataObjects : BitVec 3)
  /-- `CTRL_UNKNOWN`, R116. -/
  | ctrlUnknown (bits : MsgBits) (low : BitVec 3)
  /-- `DATA_UNKNOWN`, R116. -/
  | dataUnknown (bits : MsgBits) (numDataObjects : BitVec 3) (low : BitVec 4)
  /-- `PDO_FIXED`, R118. -/
  | pdoFixed (w : BitVec 30)
  /-- `PDO_BATTERY`, R119. -/
  | pdoBattery (w : BitVec 30)
  /-- `PDO_VARIABLE`, R120. -/
  | pdoVariable (w : BitVec 30)
  /-- `PDO_PPS`, R121. -/
  | pdoPps (w : BitVec 30)
  /-- `VDM_STRUCTURED`, R122. -/
  | vdmStructured (bits : VdmBits) (commandType : BitVec 2) (command : BitVec 5)
  /-- `VDM_UNSTRUCTURED`, R123. -/
  | vdmUnstructured (svid : BitVec 16) (payload : BitVec 15)
  /-- `VDM_CT_REQ`, R124. -/
  | vdmCtReq (bits : VdmBits) (command : BitVec 5)
  /-- `VDM_CT_ACK`, R124. -/
  | vdmCtAck (bits : VdmBits) (command : BitVec 5)
  /-- `VDM_CT_NAK`, R124. -/
  | vdmCtNak (bits : VdmBits) (command : BitVec 5)
  /-- `VDM_CT_BUSY`, R124. -/
  | vdmCtBusy (bits : VdmBits) (command : BitVec 5)
  /-- `VDM_CMD_DISCOVER_IDENTITY`, R125. -/
  | vdmCmdDiscoverIdentity (bits : VdmBits) (commandType : BitVec 2)
  /-- `VDM_CMD_DISCOVER_SVIDS`, R125. -/
  | vdmCmdDiscoverSvids (bits : VdmBits) (commandType : BitVec 2)
  /-- `VDM_CMD_DISCOVER_MODES`, R125. -/
  | vdmCmdDiscoverModes (bits : VdmBits) (commandType : BitVec 2)
  /-- `VDM_CMD_ENTER_MODE`, R125. -/
  | vdmCmdEnterMode (bits : VdmBits) (commandType : BitVec 2)
  /-- `VDM_CMD_EXIT_MODE`, R125. -/
  | vdmCmdExitMode (bits : VdmBits) (commandType : BitVec 2)
  /-- `VDM_CMD_ATTENTION`, R125. -/
  | vdmCmdAttention (bits : VdmBits) (commandType : BitVec 2)
  /-- `VDM_CMD_DP_STATUS_UPDATE`, R125. -/
  | vdmCmdDpStatusUpdate (bits : VdmBits) (commandType : BitVec 2)
  /-- `VDM_CMD_DP_CONFIGURE`, R125. -/
  | vdmCmdDpConfigure (bits : VdmBits) (commandType : BitVec 2)
  /-- `RDO_FIXED`, R126. -/
  | rdoFixed (objectPosition : BitVec 4) (flags : BitVec 6) (operatingCurrent maxOperatingCurrent : BitVec 10)
deriving DecidableEq, Repr

end Sys2Proof
end

