-- ==== Sys2Proof/WellFormed.lean ====
section
/-! DEFINITION. Which instructions are well formed: the ones an encoding exists for. A byte string or an object list
fits its one-byte count, a message carries at most 7 data objects (R8), a PACKSYM token announces at most 31 bytes
(R103), a header of the Data class has a non-zero object count (R111), and a profile's list index is 0..6 (R24).
No value that a rule answers with an error is ruled out here. -/

namespace Sys2Proof

/-- The check of one instruction; every constructor is named. -/
def Instr.wf : Instr → Bool
  | .reset => true
  | .resetPd => true
  | .powerOn => true
  | .unmaskInt => true
  | .measureCc _ => true
  | .currentLevel => true
  | .detectSink _ => true
  | .detectSource _ _ => true
  | .setTermination _ => true
  | .setRoleBits _ => true
  | .setHostCurrent _ => true
  | .configPhy => true
  | .findCc _ => true
  | .enableTxSwitch _ => true
  | .flushRx => true
  | .flushTx => true
  | .setWake _ => true
  | .decodeInt _ => true
  | .readInt => true
  | .readRxState => true
  | .readFifo _ => true
  | .sendPacket p => decide (p.length ≤ 255)
  | .parseMessage => true
  | .encodeHeader _ _ _ _ _ _ _ => true
  | .encodeCommand _ dataObjects _ _ _ _ => decide (dataObjects.length ≤ 255)
  | .parsePdo _ => true
  | .buildFixedPdo _ _ _ _ => true
  | .buildPdo _ fields => decide (fields.length ≤ 255)
  | .parsePdoList objs => decide (objs.length ≤ 255)
  | .parseVdmHeader _ => true
  | .buildVdmHeader _ extraPayload => decide (extraPayload.length ≤ 255)
  | .buildVdmUnstructured _ _ extraPayload => decide (extraPayload.length ≤ 255)
  | .buildRequest _ _ => true
  | .parseRequest _ => true
  | .typeLookup _ _ => true
  | .resetMsgId => true
  | .nextMsgId => true
  | .sendCommand _ dataObjects => decide (dataObjects.length ≤ 255)
  | .drainLog => true
  | .pollIteration => true
  | .rxStep => true
  | .dispatch m => decide (m.objects.length ≤ 7)
  | .intStep => true
  | .detachCheck => true
  | .sinkOnSourceCaps m => decide (m.others.length ≤ 6)
  | .sinkSendRequest pdos => decide (pdos.length ≤ 255)
  | .sinkOnAccept _ _ => true
  | .sinkOnVdm m => decide (m.others.length ≤ 6)
  | .vdmDiscoverIdentity _ => true
  | .vdmDiscoverSvids _ => true
  | .vdmDiscoverModes _ => true
  | .vdmEnterMode _ => true
  | .vdmDpStatus _ => true
  | .vdmDpConfigure _ => true
  | .sourceAdvertise => true
  | .sourceOnRequest m => decide (m.others.length ≤ 6)
  | .sourceAccept index _ => decide (index.toNat ≤ 6)
  | .sourcePsRdy _ m => decide (m.others.length ≤ 6)
  | .sourceReject _ => true
  | .advCadence => true
  | .onSoftReset => true
  | .selectPdoForVoltage pdos _ => decide (pdos.length ≤ 255)
  | .blockReset => true
  | .setup => true
  | .runFlow => true
  | .cancelRecover => true
  | .tokSync1 => true
  | .tokSync2 => true
  | .tokPacksym payload => decide (payload.length ≤ 31)
  | .tokJamCrc => true
  | .tokEop => true
  | .tokTxoff => true
  | .tokTxon => true
  | .rxSop => true
  | .rxSopPrime => true
  | .rxEmptyMarker => true
  | .header _ _ _ => true
  | .ctrlReserved0 _ => true
  | .ctrlGoodcrc _ => true
  | .ctrlGotomin _ => true
  | .ctrlAccept _ => true
  | .ctrlReject _ => true
  | .ctrlPing _ => true
  | .ctrlPsRdy _ => true
  | .ctrlGetSourceCap _ => true
  | .ctrlGetSinkCap _ => true
  | .ctrlDrSwap _ => true
  | .ctrlPrSwap _ => true
  | .ctrlVconnSwap _ => true
  | .ctrlWait _ => true
  | .ctrlSoftReset _ => true
  | .ctrlDataReset _ => true
  | .ctrlDataResetComplete _ => true
  | .ctrlNotSupported _ => true
  | .ctrlGetSourceCapExtended _ => true
  | .ctrlGetStatus _ => true
  | .ctrlFrSwap _ => true
  | .ctrlGetPpsStatus _ => true
  | .ctrlGetCountryCodes _ => true
  | .ctrlGetSinkCapExtended _ => true
  | .ctrlGetSourceInfo _ => true
  | .dataReserved0 _ numDataObjects => decide (numDataObjects ≠ 0)
  | .dataSourceCapabilities _ numDataObjects => decide (numDataObjects ≠ 0)
  | .dataRequest _ numDataObjects => decide (numDataObjects ≠ 0)
  | .dataBist _ numDataObjects => decide (numDataObjects ≠ 0)
  | .dataSinkCapabilities _ numDataObjects => decide (numDataObjects ≠ 0)
  | .dataBatteryStatus _ numDataObjects => decide (numDataObjects ≠ 0)
  | .dataAlert _ numDataObjects => decide (numDataObjects ≠ 0)
  | .dataGetCountryInfo _ numDataObjects => decide (numDataObjects ≠ 0)
  | .dataEnterUsb _ numDataObjects => decide (numDataObjects ≠ 0)
  | .dataEprRequest _ numDataObjects => decide (numDataObjects ≠ 0)
  | .dataEprMode _ numDataObjects => decide (numDataObjects ≠ 0)
  | .dataSourceInfo _ numDataObjects => decide (numDataObjects ≠ 0)
  | .dataRevision _ numDataObjects => decide (numDataObjects ≠ 0)
  | .dataReserved13 _ numDataObjects => decide (numDataObjects ≠ 0)
  | .dataReserved14 _ numDataObjects => decide (numDataObjects ≠ 0)
  | .dataVendorDefined _ numDataObjects => decide (numDataObjects ≠ 0)
  | .ctrlUnknown _ _ => true
  | .dataUnknown _ numDataObjects _ => decide (numDataObjects ≠ 0)
  | .pdoFixed _ => true
  | .pdoBattery _ => true
  | .pdoVariable _ => true
  | .pdoPps _ => true
  | .vdmStructured _ _ _ => true
  | .vdmUnstructured _ _ => true
  | .vdmCtReq _ _ => true
  | .vdmCtAck _ _ => true
  | .vdmCtNak _ _ => true
  | .vdmCtBusy _ _ => true
  | .vdmCmdDiscoverIdentity _ _ => true
  | .vdmCmdDiscoverSvids _ _ => true
  | .vdmCmdDiscoverModes _ _ => true
  | .vdmCmdEnterMode _ _ => true
  | .vdmCmdExitMode _ _ => true
  | .vdmCmdAttention _ _ => true
  | .vdmCmdDpStatusUpdate _ _ => true
  | .vdmCmdDpConfigure _ _ => true
  | .rdoFixed _ _ _ _ => true

end Sys2Proof
end

