-- ==== Sys2Proof/Decode.lean ====
section
/-! DEFINITION. Decode and encode. `decode` is total on any bytes of any format and rejects by name; `encode` writes the
bytes of a well-formed instruction. Header layout R110, data-object byte order R70, header byte order R71, operation
codes R130, tokens R102 to R104, markers R106, type indices R114 to R116, data objects R117 to R126. The layout of an
operation's operands after its code byte is the model's own (R130 gives codes only): DESIGN CHOICE, log 1. -/

namespace Sys2Proof

/-! ## Byte order and bit fields -/

/-- The bytes of a data object in FIFO order, `b0` first (R70). -/
def wordBytes (w : Word32) : List Byte :=
  [w.extractLsb' 0 8, w.extractLsb' 8 8, w.extractLsb' 16 8, w.extractLsb' 24 8]

/-- The value of the data object received as `b0 b1 b2 b3` (R70). -/
def wordOf (b0 b1 b2 b3 : Byte) : Word32 := b3 ++ b2 ++ b1 ++ b0

/-- The bytes of a list of data objects, first object first (R204). -/
def wordsBytes (ws : List Word32) : List Byte := ws.flatMap wordBytes

/-- Header byte 0: extended, numDataObjects, messageId, bit 0 (R110). -/
def headerByte0 (extended : BitVec 1) (n messageId : BitVec 3) (bit0 : BitVec 1) : Byte :=
  extended ++ n ++ messageId ++ bit0

/-- Header byte 1: revision, dataRole, messageType (R110). -/
def headerByte1 (revision : BitVec 2) (dataRole : BitVec 1) (t : BitVec 5) : Byte :=
  revision ++ dataRole ++ t

/-- The two header bytes in FIFO order, `byte0` first (R71). -/
def headerBytes (b : MsgBits) (n : BitVec 3) (t : BitVec 5) : List Byte :=
  [headerByte0 b.extended n b.messageId b.bit0, headerByte1 b.revision b.dataRole t]

/-- The header bits of two received header bytes, less count and type (R110). -/
def headerBits (sop : Sop) (byte0 byte1 : Byte) : MsgBits where
  sop := sop
  extended := byte0.extractLsb' 7 1
  messageId := byte0.extractLsb' 1 3
  bit0 := byte0.extractLsb' 0 1
  revision := byte1.extractLsb' 6 2
  dataRole := byte1.extractLsb' 5 1

/-- `numDataObjects = (byte0>>4)&7` (R110). -/
def headerCount (byte0 : Byte) : BitVec 3 := byte0.extractLsb' 4 3

/-- `messageType = byte1&0x1F` (R110). -/
def headerType (byte1 : Byte) : BitVec 5 := byte1.extractLsb' 0 5

/-- A structured VDM header's value `W` (R122). -/
def vdmWord (b : VdmBits) (commandType : BitVec 2) (command : BitVec 5) : Word32 :=
  b.svid ++ 1#1 ++ b.version ++ b.objectPosition ++ commandType ++ b.reserved ++ command

/-- The fields of a structured VDM header other than command type and command (R122). -/
def vdmBits (w : Word32) : VdmBits where
  svid := w.extractLsb' 16 16
  version := w.extractLsb' 11 4
  objectPosition := w.extractLsb' 8 3
  reserved := w.extractLsb' 5 1

/-! ## Names of the operand `command` -/

/-- The byte a message name is written as in an operand: Control names at their index, Data names at 32 plus their
index, `Unknown(t)` at 64 plus `t`, `Reserved` at 0 (log 1). -/
def nameCode : MsgName → Byte
  | .reserved => 0
  | .goodCrc => 1
  | .gotoMin => 2
  | .accept => 3
  | .reject => 4
  | .ping => 5
  | .psRdy => 6
  | .getSourceCap => 7
  | .getSinkCap => 8
  | .drSwap => 9
  | .prSwap => 10
  | .vconnSwap => 11
  | .wait => 12
  | .softReset => 13
  | .dataReset => 14
  | .dataResetComplete => 15
  | .notSupported => 16
  | .getSourceCapExtended => 17
  | .getStatus => 18
  | .frSwap => 19
  | .getPpsStatus => 20
  | .getCountryCodes => 21
  | .getSinkCapExtended => 22
  | .getSourceInfo => 23
  | .sourceCapabilities => 33
  | .request => 34
  | .bist => 35
  | .sinkCapabilities => 36
  | .batteryStatus => 37
  | .alert => 38
  | .getCountryInfo => 39
  | .enterUsb => 40
  | .eprRequest => 41
  | .eprMode => 42
  | .sourceInfo => 43
  | .revision => 44
  | .vendorDefined => 47
  | .unknown t => 64#8 ||| t.setWidth 8

/-- The name a byte stands for in an operand, if it is one of `nameCode`'s. -/
def nameOf (b : Byte) : Option MsgName :=
  match b.toNat with
  | 0 => some .reserved
  | 1 => some .goodCrc
  | 2 => some .gotoMin
  | 3 => some .accept
  | 4 => some .reject
  | 5 => some .ping
  | 6 => some .psRdy
  | 7 => some .getSourceCap
  | 8 => some .getSinkCap
  | 9 => some .drSwap
  | 10 => some .prSwap
  | 11 => some .vconnSwap
  | 12 => some .wait
  | 13 => some .softReset
  | 14 => some .dataReset
  | 15 => some .dataResetComplete
  | 16 => some .notSupported
  | 17 => some .getSourceCapExtended
  | 18 => some .getStatus
  | 19 => some .frSwap
  | 20 => some .getPpsStatus
  | 21 => some .getCountryCodes
  | 22 => some .getSinkCapExtended
  | 23 => some .getSourceInfo
  | 33 => some .sourceCapabilities
  | 34 => some .request
  | 35 => some .bist
  | 36 => some .sinkCapabilities
  | 37 => some .batteryStatus
  | 38 => some .alert
  | 39 => some .getCountryInfo
  | 40 => some .enterUsb
  | 41 => some .eprRequest
  | 42 => some .eprMode
  | 43 => some .sourceInfo
  | 44 => some .revision
  | 47 => some .vendorDefined
  | k => if 64 ≤ k ∧ k < 96 then some (.unknown (b.extractLsb' 0 5)) else none

/-! ## Reading operands from bytes -/

/-- A reader of operand bytes: what it read and the bytes left, or nothing. -/
abbrev Get (α : Type) := List Byte → Option (α × List Byte)

/-- Read nothing. -/
def getPure {α : Type} (a : α) : Get α := fun bs => some (a, bs)

/-- Read, then go on with what was read. -/
def getThen {α β : Type} (g : Get α) (f : α → Get β) : Get β := fun bs =>
  match g bs with
  | some (a, rest) => f a rest
  | none => none

/-- One byte. -/
def getByte : Get Byte
  | b :: rest => some (b, rest)
  | [] => none

/-- One byte that passes a check. -/
def getWhere {α : Type} (f : Byte → Option α) : Get α := getThen getByte fun b rest => (f b).map fun a => (a, rest)

/-- A byte below `2^w`, as a `w`-bit field. -/
def getField (w : Nat) : Get (BitVec w) :=
  getWhere fun b => if b.toNat < 2 ^ w then some (BitVec.ofNat w b.toNat) else none

/-- A flag: 0 or 1. -/
def getFlag : Get Bool := getWhere fun b => if b = 0 then some false else if b = 1 then some true else none

/-- A role: 0 sink, 1 source. -/
def getRole : Get Role := getWhere fun b => if b = 0 then some .sink else if b = 1 then some .source else none

/-- A class: 0 Control, 1 Data. -/
def getClass : Get MsgClass := getWhere fun b => if b = 0 then some .control else if b = 1 then some .data else none

/-- A SOP kind: 0 primary, 1 SOP′. -/
def getSop : Get Sop := getWhere fun b => if b = 0 then some .primary else if b = 1 then some .prime else none

/-- An unsupported PDO kind: 0 Battery, 1 Variable, 2 PPS. -/
def getKind : Get PdoKind :=
  getWhere fun b => if b = 0 then some .battery else if b = 1 then some .variablePdo else if b = 2 then some .pps else none

/-- A message name. -/
def getName : Get MsgName := getWhere nameOf

/-- A data object or a 32-bit number, little-endian. -/
def getWord : Get Word32
  | b0 :: b1 :: b2 :: b3 :: rest => some (wordOf b0 b1 b2 b3, rest)
  | _ => none

/-- `k` bytes. -/
def getCount : Nat → Get (List Byte)
  | 0 => getPure []
  | k + 1 => getThen getByte fun b => getThen (getCount k) fun bs => getPure (b :: bs)

/-- `k` data objects. -/
def getWordCount : Nat → Get (List Word32)
  | 0 => getPure []
  | k + 1 => getThen getWord fun w => getThen (getWordCount k) fun ws => getPure (w :: ws)

/-- A count byte and that many bytes. -/
def getBytes : Get (List Byte) := getThen getByte fun k => getCount k.toNat

/-- A count byte and that many data objects. -/
def getWords : Get (List Word32) := getThen getByte fun k => getWordCount k.toNat

/-- A 30-bit Fixed PDO body: a data object whose type bits are 0. -/
def getProfile : Get (BitVec 30) :=
  getThen getWord fun w rest => if w.extractLsb' 30 2 = 0#2 then some (w.extractLsb' 0 30, rest) else none

/-- A SOP byte and two header bytes: the header bits, the object count and the type. -/
def getHeader : Get (MsgBits × BitVec 3 × BitVec 5) :=
  getThen getSop fun sop => getThen getByte fun b0 => getThen getByte fun b1 =>
    getPure (headerBits sop b0 b1, headerCount b0, headerType b1)

/-- Header bits alone: the count and type bits are 0. -/
def getMsgBits : Get MsgBits :=
  getThen getHeader fun h rest => if h.2.1 = 0#3 ∧ h.2.2 = 0#5 then some (h.1, rest) else none

/-- A message operand: its header with its count and type, then its objects. -/
def getMsg : Get MsgOperand :=
  getThen getHeader fun h => getThen (getWordCount h.2.1.toNat) fun ws => getPure ⟨h.1, h.2.2, ws⟩

/-- A Data message operand: its header with the count of the objects after the first, type bits 0, then its objects. -/
def getDataMsg : Get DataOperand :=
  getThen getHeader fun h rest =>
    if h.2.2 = 0#5 ∧ h.2.1 ≠ 7#3 then
      getThen getWord (fun w => getThen (getWordCount h.2.1.toNat) fun ws => getPure ⟨h.1, w, ws⟩) rest
    else none

/-- A detection strategy: 0 and a debug flag, or 1, a code and a debug flag. -/
def getDetect : Get Detect :=
  getThen getFlag fun isSource =>
    if isSource then getThen getByte fun c => getThen getFlag fun d => getPure (.source c d)
    else getThen getFlag fun d => getPure (.sink d)

/-- The unstructured form's SVID and 15-bit payload, as a VDM header value with bit 15 clear (R123). -/
def getUnstructured : Get (BitVec 16 × BitVec 15) :=
  getThen getWord fun w rest =>
    if w.extractLsb' 15 1 = 0#1 then some ((w.extractLsb' 16 16, w.extractLsb' 0 15), rest) else none

/-- A record of `BUILD_VDM_HEADER`: 0 and the structured fields, or 1 and the unstructured value. -/
def getVdmFields : Get VdmFields :=
  getThen getFlag fun raw =>
    if raw then getThen getUnstructured fun u => getPure (.unstructured u.1 u.2)
    else getThen getWord fun svid => getThen getByte fun v => getThen getByte fun p => getThen getByte fun ct =>
      getThen getByte fun c => getPure (.structured svid v p ct c)

/-- The fields of a VDM request a responder operation echoes. -/
def getRequest : Get VdmRequest :=
  getThen (getField 4) fun v => getThen (getField 3) fun p => getThen getByte fun lo => getThen getByte fun hi =>
    getPure ⟨hi ++ lo, v, p⟩

/-- Read one operand and build. -/
def get1 {α : Type} (g : Get α) (f : α → Instr) : Get Instr := getThen g fun a => getPure (f a)

/-- Read two operands and build. -/
def get2 {α β : Type} (g : Get α) (h : Get β) (f : α → β → Instr) : Get Instr :=
  getThen g fun a => getThen h fun b => getPure (f a b)

/-! ## Decoding -/

/-- Why bytes are no instruction. -/
inductive DecodeError where
  /-- Nothing was given, or fewer bytes than the encoding has. -/
  | truncated
  /-- An operation code R130 leaves unassigned. -/
  | unassignedCode (code : Byte)
  /-- An operation's operand bytes are short or hold a value no operand has. -/
  | badOperands (code : Byte)
  /-- A byte that is no TX token (R102 to R104). -/
  | noToken (b : Byte)
  /-- A byte that is no RX marker: the codec discards it (R106). -/
  | noMarker (b : Byte)
  /-- A header of the other class than its format's (R111). -/
  | wrongClass (byte0 : Byte)
  /-- A structured VDM header was asked for and `W[15]` is 0, or the command has no row (R125). -/
  | noVdmRow (w : Word32)
  /-- An RDO whose reserved bits `W[21:20]` are not 0 (R126). -/
  | reservedRdo (w : Word32)
deriving DecidableEq, Repr

/-- The operation a code byte names, reading its operands; `none` for an unassigned code (R130). -/
def opReader (code : Byte) : Option (Get Instr) :=
  match code.toNat with
  | 0x01 => some (getPure .reset)
  | 0x02 => some (getPure .resetPd)
  | 0x03 => some (getPure .powerOn)
  | 0x04 => some (getPure .unmaskInt)
  | 0x05 => some (get1 getByte .measureCc)
  | 0x06 => some (getPure .currentLevel)
  | 0x07 => some (get1 getFlag .detectSink)
  | 0x08 => some (get2 getByte getFlag .detectSource)
  | 0x09 => some (get1 getRole .setTermination)
  | 0x0A => some (get1 getRole .setRoleBits)
  | 0x0B => some (get1 getByte .setHostCurrent)
  | 0x0C => some (getPure .configPhy)
  | 0x0D => some (get1 getDetect .findCc)
  | 0x0E => some (get1 getByte .enableTxSwitch)
  | 0x0F => some (getPure .flushRx)
  | 0x10 => some (getPure .flushTx)
  | 0x11 => some (get1 getFlag .setWake)
  | 0x12 => some (get1 getByte .decodeInt)
  | 0x13 => some (getPure .readInt)
  | 0x14 => some (getPure .readRxState)
  | 0x15 => some (get1 getByte .readFifo)
  | 0x16 => some (get1 getBytes .sendPacket)
  | 0x20 => some (getPure .parseMessage)
  | 0x21 => some (getThen getByte fun ext => getThen getByte fun n => getThen getByte fun id => getThen getByte fun rev =>
      getThen getByte fun pr => getThen getByte fun dr => getThen getByte fun t => getPure (.encodeHeader ext n id rev pr dr t))
  | 0x22 => some (getThen getName fun c => getThen getBytes fun d => getThen getByte fun id => getThen getByte fun rev =>
      getThen getByte fun pr => getThen getByte fun dr => getPure (.encodeCommand c d id rev pr dr))
  | 0x23 => some (get1 getWord .parsePdo)
  | 0x24 => some (getThen getWord fun v => getThen getWord fun c => getThen getWord fun p => getThen getWord fun f =>
      getPure (.buildFixedPdo v c p f))
  | 0x25 => some (get2 getKind getBytes .buildPdo)
  | 0x26 => some (get1 getWords .parsePdoList)
  | 0x27 => some (get1 getWord .parseVdmHeader)
  | 0x28 => some (get2 getVdmFields getBytes .buildVdmHeader)
  | 0x29 => some (get2 getUnstructured getBytes fun u x => .buildVdmUnstructured u.1 u.2 x)
  | 0x2A => some (get2 getWord getWord .buildRequest)
  | 0x2B => some (get1 getWord .parseRequest)
  | 0x2C => some (get2 getClass (getField 5) .typeLookup)
  | 0x30 => some (getPure .resetMsgId)
  | 0x31 => some (getPure .nextMsgId)
  | 0x32 => some (get2 getName getBytes .sendCommand)
  | 0x33 => some (getPure .drainLog)
  | 0x40 => some (getPure .pollIteration)
  | 0x41 => some (getPure .rxStep)
  | 0x42 => some (get1 getMsg .dispatch)
  | 0x43 => some (getPure .intStep)
  | 0x44 => some (getPure .detachCheck)
  | 0x45 => some (get1 getDataMsg .sinkOnSourceCaps)
  | 0x46 => some (get1 getWords .sinkSendRequest)
  | 0x47 => some (get2 getFlag getMsgBits .sinkOnAccept)
  | 0x48 => some (get1 getDataMsg .sinkOnVdm)
  | 0x49 => some (get1 getRequest .vdmDiscoverIdentity)
  | 0x4A => some (get1 getRequest .vdmDiscoverSvids)
  | 0x4B => some (get1 getRequest .vdmDiscoverModes)
  | 0x4C => some (get1 getRequest .vdmEnterMode)
  | 0x4D => some (get1 getRequest .vdmDpStatus)
  | 0x4E => some (get1 getRequest .vdmDpConfigure)
  | 0x4F => some (getPure .sourceAdvertise)
  | 0x50 => some (get1 getDataMsg .sourceOnRequest)
  | 0x51 => some (get2 (getWhere fun b => if b.toNat ≤ 6 then some (BitVec.ofNat 3 b.toNat) else none) getProfile .sourceAccept)
  | 0x52 => some (get2 getProfile getDataMsg .sourcePsRdy)
  | 0x53 => some (get1 (getField 4) .sourceReject)
  | 0x54 => some (getPure .advCadence)
  | 0x55 => some (getPure .onSoftReset)
  | 0x56 => some (get2 getWords getWord .selectPdoForVoltage)
  | 0x60 => some (getPure .blockReset)
  | 0x61 => some (getPure .setup)
  | 0x62 => some (getPure .runFlow)
  | 0x63 => some (getPure .cancelRecover)
  | _ => none

/-- One operation: a code byte and its operands; bytes after them are not read (R130). -/
def decodeOp : List Byte → Except DecodeError Instr
  | [] => .error .truncated
  | code :: rest =>
    match opReader code with
    | none => .error (.unassignedCode code)
    | some g =>
      match g rest with
      | some (i, _) => .ok i
      | none => .error (.badOperands code)

/-- One TX token, with the payload a PACKSYM token announces (R102 to R104). -/
def decodeToken : List Byte → Except DecodeError Instr
  | [] => .error .truncated
  | b :: rest =>
    if b = 0x12 then .ok .tokSync1
    else if b = 0x13 then .ok .tokSync2
    else if b = 0xFF then .ok .tokJamCrc
    else if b = 0x14 then .ok .tokEop
    else if b = 0xFE then .ok .tokTxoff
    else if b = 0xA1 then .ok .tokTxon
    else if b.extractLsb' 5 3 = 0b100#3 then
      match getCount (b.extractLsb' 0 5).toNat rest with
      | some (p, _) => .ok (.tokPacksym p)
      | none => .error .truncated
    else .error (.noToken b)

/-- One RX marker, compared as a whole byte (R106). -/
def decodeMarker : List Byte → Except DecodeError Instr
  | [] => .error .truncated
  | b :: _ =>
    if b = 0xE0 then .ok .rxSop
    else if b = 0xC0 then .ok .rxSopPrime
    else if b = 0x00 then .ok .rxEmptyMarker
    else .error (.noMarker b)

/-- The row of a Control header with type `t` (R114, R116). -/
def controlRow (b : MsgBits) (t : BitVec 5) : Instr :=
  match t.toNat with
  | 0 => .ctrlReserved0 b
  | 1 => .ctrlGoodcrc b
  | 2 => .ctrlGotomin b
  | 3 => .ctrlAccept b
  | 4 => .ctrlReject b
  | 5 => .ctrlPing b
  | 6 => .ctrlPsRdy b
  | 7 => .ctrlGetSourceCap b
  | 8 => .ctrlGetSinkCap b
  | 9 => .ctrlDrSwap b
  | 10 => .ctrlPrSwap b
  | 11 => .ctrlVconnSwap b
  | 12 => .ctrlWait b
  | 13 => .ctrlSoftReset b
  | 14 => .ctrlDataReset b
  | 15 => .ctrlDataResetComplete b
  | 16 => .ctrlNotSupported b
  | 17 => .ctrlGetSourceCapExtended b
  | 18 => .ctrlGetStatus b
  | 19 => .ctrlFrSwap b
  | 20 => .ctrlGetPpsStatus b
  | 21 => .ctrlGetCountryCodes b
  | 22 => .ctrlGetSinkCapExtended b
  | 23 => .ctrlGetSourceInfo b
  | _ => .ctrlUnknown b (t.extractLsb' 0 3)

/-- The row of a Data header with object count `n` and type `t` (R115, R116). -/
def dataRow (b : MsgBits) (n : BitVec 3) (t : BitVec 5) : Instr :=
  match t.toNat with
  | 0 => .dataReserved0 b n
  | 1 => .dataSourceCapabilities b n
  | 2 => .dataRequest b n
  | 3 => .dataBist b n
  | 4 => .dataSinkCapabilities b n
  | 5 => .dataBatteryStatus b n
  | 6 => .dataAlert b n
  | 7 => .dataGetCountryInfo b n
  | 8 => .dataEnterUsb b n
  | 9 => .dataEprRequest b n
  | 10 => .dataEprMode b n
  | 11 => .dataSourceInfo b n
  | 12 => .dataRevision b n
  | 13 => .dataReserved13 b n
  | 14 => .dataReserved14 b n
  | 15 => .dataVendorDefined b n
  | _ => .dataUnknown b n (t.extractLsb' 0 4)

/-- Two header bytes and a SOP byte, read by `f` (R71, R110). -/
def decodeHeaderWith (f : MsgBits → BitVec 3 → BitVec 5 → Except DecodeError Instr) :
    List Byte → Except DecodeError Instr
  | b0 :: b1 :: rest =>
    match getSop rest with
    | some (sop, _) => f (headerBits sop b0 b1) (headerCount b0) (headerType b1)
    | none => .error .truncated
  | _ => .error .truncated

/-- A data object read by `f`. -/
def decodeWordWith (f : Word32 → Except DecodeError Instr) (bs : List Byte) : Except DecodeError Instr :=
  match getWord bs with
  | some (w, _) => f w
  | none => .error .truncated

/-- The PDO row `W[31:30]` selects (R117). -/
def pdoRow (w : Word32) : Instr :=
  let body := w.extractLsb' 0 30
  match (w.extractLsb' 30 2).toNat with
  | 0 => .pdoFixed body
  | 1 => .pdoBattery body
  | 2 => .pdoVariable body
  | _ => .pdoPps body

/-- The VDM header row `W[15]` selects (R122, R123). -/
def vdmHeaderRow (w : Word32) : Instr :=
  if w.extractLsb' 15 1 = 1#1 then .vdmStructured (vdmBits w) (w.extractLsb' 6 2) (w.extractLsb' 0 5)
  else .vdmUnstructured (w.extractLsb' 16 16) (w.extractLsb' 0 15)

/-- The command-type row of a structured VDM header (R124). -/
def vdmCommandTypeRow (w : Word32) : Except DecodeError Instr :=
  if w.extractLsb' 15 1 = 1#1 then
    let b := vdmBits w
    let command := w.extractLsb' 0 5
    match (w.extractLsb' 6 2).toNat with
    | 0 => .ok (.vdmCtReq b command)
    | 1 => .ok (.vdmCtAck b command)
    | 2 => .ok (.vdmCtNak b command)
    | _ => .ok (.vdmCtBusy b command)
  else .error (.noVdmRow w)

/-- The command row of a structured VDM header, if its command has one (R125). -/
def vdmCommandRow (w : Word32) : Except DecodeError Instr :=
  if w.extractLsb' 15 1 = 1#1 then
    let b := vdmBits w
    let ct := w.extractLsb' 6 2
    match (w.extractLsb' 0 5).toNat with
    | 1 => .ok (.vdmCmdDiscoverIdentity b ct)
    | 2 => .ok (.vdmCmdDiscoverSvids b ct)
    | 3 => .ok (.vdmCmdDiscoverModes b ct)
    | 4 => .ok (.vdmCmdEnterMode b ct)
    | 5 => .ok (.vdmCmdExitMode b ct)
    | 6 => .ok (.vdmCmdAttention b ct)
    | 16 => .ok (.vdmCmdDpStatusUpdate b ct)
    | 17 => .ok (.vdmCmdDpConfigure b ct)
    | _ => .error (.noVdmRow w)
  else .error (.noVdmRow w)

/-- The RDO row: the reserved bits are 0 (R126). -/
def rdoRow (w : Word32) : Except DecodeError Instr :=
  if w.extractLsb' 20 2 = 0#2 then
    .ok (.rdoFixed (w.extractLsb' 28 4) (w.extractLsb' 22 6) (w.extractLsb' 10 10) (w.extractLsb' 0 10))
  else .error (.reservedRdo w)

/-- The instruction at the front of `bs`, read in format `f`. -/
def decode (f : Format) (bs : List Byte) : Except DecodeError Instr :=
  match f with
  | .op => decodeOp bs
  | .txToken => decodeToken bs
  | .rxMarker => decodeMarker bs
  | .header => decodeHeaderWith (fun b n t => .ok (.header b n t)) bs
  | .headerControl =>
    decodeHeaderWith (fun b n t =>
      if n = 0#3 then .ok (controlRow b t) else .error (.wrongClass (headerByte0 b.extended n b.messageId b.bit0))) bs
  | .headerData =>
    decodeHeaderWith (fun b n t =>
      if n = 0#3 then .error (.wrongClass (headerByte0 b.extended n b.messageId b.bit0)) else .ok (dataRow b n t)) bs
  | .pdo => decodeWordWith (fun w => .ok (pdoRow w)) bs
  | .vdmHeader => decodeWordWith (fun w => .ok (vdmHeaderRow w)) bs
  | .vdmCommandType => decodeWordWith vdmCommandTypeRow bs
  | .vdmCommand => decodeWordWith vdmCommandRow bs
  | .rdo => decodeWordWith rdoRow bs

/-! ## Encoding -/

/-- A flag as a byte. -/
def flagByte (b : Bool) : Byte := if b then 1 else 0

/-- A role as a byte. -/
def roleByte : Role → Byte
  | .sink => 0
  | .source => 1

/-- A SOP kind as a byte. -/
def sopByte : Sop → Byte
  | .primary => 0
  | .prime => 1

/-- A class as a byte. -/
def classByte : MsgClass → Byte
  | .control => 0
  | .data => 1

/-- An unsupported PDO kind as a byte. -/
def kindByte : PdoKind → Byte
  | .battery => 0
  | .variablePdo => 1
  | .pps => 2

/-- A byte string with its count byte. -/
def putBytes (bs : List Byte) : List Byte := BitVec.ofNat 8 bs.length :: bs

/-- A list of data objects with its count byte. -/
def putWords (ws : List Word32) : List Byte := BitVec.ofNat 8 ws.length :: wordsBytes ws

/-- A SOP byte and the header bytes. -/
def putHeader (b : MsgBits) (n : BitVec 3) (t : BitVec 5) : List Byte := sopByte b.sop :: headerBytes b n t

/-- A message operand. -/
def putMsg (m : MsgOperand) : List Byte :=
  putHeader m.bits (BitVec.ofNat 3 m.objects.length) m.messageType ++ wordsBytes m.objects

/-- A Data message operand. -/
def putDataMsg (m : DataOperand) : List Byte :=
  putHeader m.bits (BitVec.ofNat 3 m.others.length) 0#5 ++ wordsBytes (m.first :: m.others)

/-- A detection strategy. -/
def putDetect : Detect → List Byte
  | .sink d => [0, flagByte d]
  | .source c d => [1, c, flagByte d]

/-- A 30-bit Fixed PDO body as a data object. -/
def putProfile (w : BitVec 30) : List Byte := wordBytes (0#2 ++ w)

/-- The unstructured form's value (R123). -/
def putUnstructured (svid : BitVec 16) (payload : BitVec 15) : List Byte := wordBytes (svid ++ 0#1 ++ payload)

/-- A record of `BUILD_VDM_HEADER`. -/
def putVdmFields : VdmFields → List Byte
  | .structured svid v p ct c => 0 :: wordBytes svid ++ [v, p, ct, c]
  | .unstructured svid payload => 1 :: putUnstructured svid payload

/-- The fields of a VDM request. -/
def putRequest (r : VdmRequest) : List Byte :=
  [r.version.setWidth 8, r.objectPosition.setWidth 8, r.svid.extractLsb' 0 8, r.svid.extractLsb' 8 8]

/-- A header row: header bytes, then the SOP byte. -/
def putHeaderRow (b : MsgBits) (n : BitVec 3) (t : BitVec 5) : List Byte := headerBytes b n t ++ [sopByte b.sop]

/-- The format and the bytes of an instruction. -/
def encode : Instr → Format × List Byte
  | .reset => (.op, [0x01])
  | .resetPd => (.op, [0x02])
  | .powerOn => (.op, [0x03])
  | .unmaskInt => (.op, [0x04])
  | .measureCc pin => (.op, [0x05, pin])
  | .currentLevel => (.op, [0x06])
  | .detectSink debug => (.op, [0x07, flagByte debug])
  | .detectSource hostCode debug => (.op, [0x08, hostCode, flagByte debug])
  | .setTermination role => (.op, [0x09, roleByte role])
  | .setRoleBits role => (.op, [0x0A, roleByte role])
  | .setHostCurrent code => (.op, [0x0B, code])
  | .configPhy => (.op, [0x0C])
  | .findCc detect => (.op, 0x0D :: putDetect detect)
  | .enableTxSwitch pin => (.op, [0x0E, pin])
  | .flushRx => (.op, [0x0F])
  | .flushTx => (.op, [0x10])
  | .setWake en => (.op, [0x11, flagByte en])
  | .decodeInt i => (.op, [0x12, i])
  | .readInt => (.op, [0x13])
  | .readRxState => (.op, [0x14])
  | .readFifo n => (.op, [0x15, n])
  | .sendPacket p => (.op, 0x16 :: putBytes p)
  | .parseMessage => (.op, [0x20])
  | .encodeHeader ext n id rev pr dr t => (.op, [0x21, ext, n, id, rev, pr, dr, t])
  | .encodeCommand command dataObjects messageId revision powerRole dataRole => (.op, 0x22 :: nameCode command :: putBytes dataObjects ++ [messageId, revision, powerRole, dataRole])
  | .parsePdo b4 => (.op, 0x23 :: wordBytes b4)
  | .buildFixedPdo v c p f => (.op, 0x24 :: wordsBytes [v, c, p, f])
  | .buildPdo kind fields => (.op, 0x25 :: kindByte kind :: putBytes fields)
  | .parsePdoList objs => (.op, 0x26 :: putWords objs)
  | .parseVdmHeader b4 => (.op, 0x27 :: wordBytes b4)
  | .buildVdmHeader fields extraPayload => (.op, 0x28 :: putVdmFields fields ++ putBytes extraPayload)
  | .buildVdmUnstructured svid payload extraPayload => (.op, 0x29 :: putUnstructured svid payload ++ putBytes extraPayload)
  | .buildRequest index current => (.op, 0x2A :: wordsBytes [index, current])
  | .parseRequest b4 => (.op, 0x2B :: wordBytes b4)
  | .typeLookup cls t => (.op, [0x2C, classByte cls, t.setWidth 8])
  | .resetMsgId => (.op, [0x30])
  | .nextMsgId => (.op, [0x31])
  | .sendCommand command dataObjects => (.op, 0x32 :: nameCode command :: putBytes dataObjects)
  | .drainLog => (.op, [0x33])
  | .pollIteration => (.op, [0x40])
  | .rxStep => (.op, [0x41])
  | .dispatch m => (.op, 0x42 :: putMsg m)
  | .intStep => (.op, [0x43])
  | .detachCheck => (.op, [0x44])
  | .sinkOnSourceCaps m => (.op, 0x45 :: putDataMsg m)
  | .sinkSendRequest pdos => (.op, 0x46 :: putWords pdos)
  | .sinkOnAccept psRdy bits => (.op, 0x47 :: flagByte psRdy :: putHeader bits 0#3 0#5)
  | .sinkOnVdm m => (.op, 0x48 :: putDataMsg m)
  | .vdmDiscoverIdentity request => (.op, 0x49 :: putRequest request)
  | .vdmDiscoverSvids request => (.op, 0x4A :: putRequest request)
  | .vdmDiscoverModes request => (.op, 0x4B :: putRequest request)
  | .vdmEnterMode request => (.op, 0x4C :: putRequest request)
  | .vdmDpStatus request => (.op, 0x4D :: putRequest request)
  | .vdmDpConfigure request => (.op, 0x4E :: putRequest request)
  | .sourceAdvertise => (.op, [0x4F])
  | .sourceOnRequest m => (.op, 0x50 :: putDataMsg m)
  | .sourceAccept index profile => (.op, 0x51 :: index.setWidth 8 :: putProfile profile)
  | .sourcePsRdy profile m => (.op, 0x52 :: putProfile profile ++ putDataMsg m)
  | .sourceReject pos => (.op, [0x53, pos.setWidth 8])
  | .advCadence => (.op, [0x54])
  | .onSoftReset => (.op, [0x55])
  | .selectPdoForVoltage pdos volts => (.op, 0x56 :: putWords pdos ++ wordBytes volts)
  | .blockReset => (.op, [0x60])
  | .setup => (.op, [0x61])
  | .runFlow => (.op, [0x62])
  | .cancelRecover => (.op, [0x63])
  | .tokSync1 => (.txToken, [0x12])
  | .tokSync2 => (.txToken, [0x13])
  | .tokJamCrc => (.txToken, [0xFF])
  | .tokEop => (.txToken, [0x14])
  | .tokTxoff => (.txToken, [0xFE])
  | .tokTxon => (.txToken, [0xA1])
  | .tokPacksym payload => (.txToken, (0x80#8 ||| BitVec.ofNat 8 payload.length) :: payload)
  | .rxSop => (.rxMarker, [0xE0])
  | .rxSopPrime => (.rxMarker, [0xC0])
  | .rxEmptyMarker => (.rxMarker, [0x00])
  | .header b n t => (.header, putHeaderRow b n t)
  | .ctrlReserved0 b => (.headerControl, putHeaderRow b 0#3 0#5)
  | .ctrlGoodcrc b => (.headerControl, putHeaderRow b 0#3 1#5)
  | .ctrlGotomin b => (.headerControl, putHeaderRow b 0#3 2#5)
  | .ctrlAccept b => (.headerControl, putHeaderRow b 0#3 3#5)
  | .ctrlReject b => (.headerControl, putHeaderRow b 0#3 4#5)
  | .ctrlPing b => (.headerControl, putHeaderRow b 0#3 5#5)
  | .ctrlPsRdy b => (.headerControl, putHeaderRow b 0#3 6#5)
  | .ctrlGetSourceCap b => (.headerControl, putHeaderRow b 0#3 7#5)
  | .ctrlGetSinkCap b => (.headerControl, putHeaderRow b 0#3 8#5)
  | .ctrlDrSwap b => (.headerControl, putHeaderRow b 0#3 9#5)
  | .ctrlPrSwap b => (.headerControl, putHeaderRow b 0#3 10#5)
  | .ctrlVconnSwap b => (.headerControl, putHeaderRow b 0#3 11#5)
  | .ctrlWait b => (.headerControl, putHeaderRow b 0#3 12#5)
  | .ctrlSoftReset b => (.headerControl, putHeaderRow b 0#3 13#5)
  | .ctrlDataReset b => (.headerControl, putHeaderRow b 0#3 14#5)
  | .ctrlDataResetComplete b => (.headerControl, putHeaderRow b 0#3 15#5)
  | .ctrlNotSupported b => (.headerControl, putHeaderRow b 0#3 16#5)
  | .ctrlGetSourceCapExtended b => (.headerControl, putHeaderRow b 0#3 17#5)
  | .ctrlGetStatus b => (.headerControl, putHeaderRow b 0#3 18#5)
  | .ctrlFrSwap b => (.headerControl, putHeaderRow b 0#3 19#5)
  | .ctrlGetPpsStatus b => (.headerControl, putHeaderRow b 0#3 20#5)
  | .ctrlGetCountryCodes b => (.headerControl, putHeaderRow b 0#3 21#5)
  | .ctrlGetSinkCapExtended b => (.headerControl, putHeaderRow b 0#3 22#5)
  | .ctrlGetSourceInfo b => (.headerControl, putHeaderRow b 0#3 23#5)
  | .dataReserved0 b n => (.headerData, putHeaderRow b n 0#5)
  | .dataSourceCapabilities b n => (.headerData, putHeaderRow b n 1#5)
  | .dataRequest b n => (.headerData, putHeaderRow b n 2#5)
  | .dataBist b n => (.headerData, putHeaderRow b n 3#5)
  | .dataSinkCapabilities b n => (.headerData, putHeaderRow b n 4#5)
  | .dataBatteryStatus b n => (.headerData, putHeaderRow b n 5#5)
  | .dataAlert b n => (.headerData, putHeaderRow b n 6#5)
  | .dataGetCountryInfo b n => (.headerData, putHeaderRow b n 7#5)
  | .dataEnterUsb b n => (.headerData, putHeaderRow b n 8#5)
  | .dataEprRequest b n => (.headerData, putHeaderRow b n 9#5)
  | .dataEprMode b n => (.headerData, putHeaderRow b n 10#5)
  | .dataSourceInfo b n => (.headerData, putHeaderRow b n 11#5)
  | .dataRevision b n => (.headerData, putHeaderRow b n 12#5)
  | .dataReserved13 b n => (.headerData, putHeaderRow b n 13#5)
  | .dataReserved14 b n => (.headerData, putHeaderRow b n 14#5)
  | .dataVendorDefined b n => (.headerData, putHeaderRow b n 15#5)
  | .ctrlUnknown b low => (.headerControl, putHeaderRow b 0#3 (0b11#2 ++ low))
  | .dataUnknown b n low => (.headerData, putHeaderRow b n (1#1 ++ low))
  | .pdoFixed w => (.pdo, wordBytes (0#2 ++ w))
  | .pdoBattery w => (.pdo, wordBytes (1#2 ++ w))
  | .pdoVariable w => (.pdo, wordBytes (2#2 ++ w))
  | .pdoPps w => (.pdo, wordBytes (3#2 ++ w))
  | .vdmStructured b ct c => (.vdmHeader, wordBytes (vdmWord b ct c))
  | .vdmUnstructured svid payload => (.vdmHeader, wordBytes (svid ++ 0#1 ++ payload))
  | .vdmCtReq b c => (.vdmCommandType, wordBytes (vdmWord b 0#2 c))
  | .vdmCtAck b c => (.vdmCommandType, wordBytes (vdmWord b 1#2 c))
  | .vdmCtNak b c => (.vdmCommandType, wordBytes (vdmWord b 2#2 c))
  | .vdmCtBusy b c => (.vdmCommandType, wordBytes (vdmWord b 3#2 c))
  | .vdmCmdDiscoverIdentity b ct => (.vdmCommand, wordBytes (vdmWord b ct 1#5))
  | .vdmCmdDiscoverSvids b ct => (.vdmCommand, wordBytes (vdmWord b ct 2#5))
  | .vdmCmdDiscoverModes b ct => (.vdmCommand, wordBytes (vdmWord b ct 3#5))
  | .vdmCmdEnterMode b ct => (.vdmCommand, wordBytes (vdmWord b ct 4#5))
  | .vdmCmdExitMode b ct => (.vdmCommand, wordBytes (vdmWord b ct 5#5))
  | .vdmCmdAttention b ct => (.vdmCommand, wordBytes (vdmWord b ct 6#5))
  | .vdmCmdDpStatusUpdate b ct => (.vdmCommand, wordBytes (vdmWord b ct 16#5))
  | .vdmCmdDpConfigure b ct => (.vdmCommand, wordBytes (vdmWord b ct 17#5))
  | .rdoFixed pos flags cur max => (.rdo, wordBytes (pos ++ flags ++ 0#2 ++ cur ++ max))

/-! ## The table's words -/

/-- The bytes of the longest instruction: `SELECT_PDO_FOR_VOLTAGE` with 255 objects. -/
def maxInstrBytes : Nat := 1026

/-- The VDM rows that fix a command type or a command and whose other bits are all 0, by their `match` number. -/
def vdmTableFormat (w : Nat) : Option Format :=
  if w = 0x8000 ∨ w = 0x8040 ∨ w = 0x8080 ∨ w = 0x80C0 then some .vdmCommandType
  else if w = 0x8001 ∨ w = 0x8002 ∨ w = 0x8003 ∨ w = 0x8004 ∨ w = 0x8005 ∨ w = 0x8006 ∨ w = 0x8010 ∨ w = 0x8011 then
    some .vdmCommand
  else none

/-- The format a table word is read in, when only its width and its bits are given. The formats' words overlap, so this
is a choice (DESIGN CHOICE, log 2): 8 bits an operation, else a token, else a marker; otherwise a VDM row whose
`match` is exactly the word; else by width a header, an RDO, or a PDO. -/
def tableFormat (nbits w : Nat) : Option Format :=
  if nbits = 0 then some .header
  else if nbits ≤ 8 then
    if (opReader (BitVec.ofNat 8 w)).isSome then some .op
    else
      match decodeToken (BitVec.ofNat 8 w :: List.replicate 31 0) with
      | .ok _ => some .txToken
      | .error _ =>
        match decodeMarker [BitVec.ofNat 8 w] with
        | .ok _ => some .rxMarker
        | .error _ => none
  else if nbits ≤ 16 then
    match vdmTableFormat w with
    | some f => some f
    | none => if w / 4096 % 8 = 0 then some .headerControl else some .headerData
  else if nbits ≤ 24 then some .rdo
  else
    match vdmTableFormat w with
    | some f => some f
    | none => some .pdo

/-- The bytes of a table word in format `f`, as the FIFO holds them: a header's high byte first (R71), a data object's
low byte first (R70); then zeros up to the longest instruction. -/
def tableBytes (f : Format) (w : Nat) : List Byte :=
  (match f with
    | .op => [BitVec.ofNat 8 w]
    | .txToken => [BitVec.ofNat 8 w]
    | .rxMarker => [BitVec.ofNat 8 w]
    | .header => [BitVec.ofNat 8 (w / 256), BitVec.ofNat 8 w]
    | .headerControl => [BitVec.ofNat 8 (w / 256), BitVec.ofNat 8 w]
    | .headerData => [BitVec.ofNat 8 (w / 256), BitVec.ofNat 8 w]
    | .pdo => wordBytes (BitVec.ofNat 32 w)
    | .vdmHeader => wordBytes (BitVec.ofNat 32 w)
    | .vdmCommandType => wordBytes (BitVec.ofNat 32 w)
    | .vdmCommand => wordBytes (BitVec.ofNat 32 w)
    | .rdo => wordBytes (BitVec.ofNat 32 w)) ++ List.replicate maxInstrBytes 0

/-- The instruction the decoder reads from a table word of `nbits` bits, every bit above them 0. -/
def decodeTableWord (nbits w : Nat) : Option Instr :=
  match tableFormat nbits w with
  | none => none
  | some f => (decode f (tableBytes f w)).toOption

end Sys2Proof
end

