-- ==== Sys2Proof/Machine/Records.lean ====
section
/-! DEFINITION. The records the codec reads and builds: header, PDOs, VDM header, request, message (R32, `30_encoding.md`,
`41_frame_codec.md`), and the sent-log record (R27). Types only. -/

namespace Sys2Proof.Machine

/-- The decoded header fields (R110). `powerRole` is `bit0` on a primary-SOP frame and None on SOP′ (R112). -/
structure Header where
  extended : BitVec 1
  numDataObjects : BitVec 3
  messageId : BitVec 3
  bit0 : BitVec 1
  powerRole : Option (BitVec 1)
  revision : BitVec 2
  dataRole : BitVec 1
  messageType : BitVec 5
deriving DecidableEq, Repr

/-- A Fixed PDO in its physical units (R118). -/
structure FixedPdo where
  voltage_mV : Nat
  maxCurrent_mA : Nat
  peakCurrentCode : Nat
  extraFlags : Nat
deriving DecidableEq, Repr

/-- A parsed PDO (R118 to R121). -/
inductive Pdo where
  | fixed (p : FixedPdo)
  | battery (maxVoltage_mV minVoltage_mV maxPower_mW : Nat)
  | variablePdo (maxVoltage_mV minVoltage_mV maxCurrent_mA : Nat)
  | pps (subtype limited maxVoltage_mV minVoltage_mV maxCurrent_mA : Nat)
deriving DecidableEq, Repr

/-- A parsed VDM header (R122, R123). -/
inductive VdmHeader where
  | structured (svid : BitVec 16) (version : BitVec 4) (objectPosition : BitVec 3) (commandType : BitVec 2)
      (command : BitVec 5)
  | unstructured (svid : BitVec 16) (payload : BitVec 15)
deriving DecidableEq, Repr

/-- A parsed Request Data Object (R221). -/
structure Request where
  objectPosition : Nat
  operatingCurrent_mA : Nat
  maxOperatingCurrent_mA : Nat
  flags : Nat
deriving DecidableEq, Repr

/-- A received message (R32). A data object stands as its little-endian value `W` (R70). -/
structure Message where
  sop : Sop
  hdr : Header
  cls : MsgClass
  name : MsgName
  dataObjects : List Word32
  vdm : Option VdmHeader
deriving DecidableEq, Repr

/-- A record of the sent-message log (R27). -/
structure SentRecord where
  messageType : BitVec 5
  cls : MsgClass
  messageId : BitVec 3
  dataObjects : List Byte
deriving DecidableEq, Repr

end Sys2Proof.Machine
end

