-- ==== Sys2Proof/Config.lean ====
section
/-! DEFINITION. What is fixed for a machine: the configuration parameters (R9, R29) as one record, the values
`State.reset` takes for them, and the free values (opaque constants nothing can evaluate). -/

namespace Sys2Proof

/-- What the block sends when it receives Soft_Reset (R9, R309). -/
inductive SoftResetReply where
  | silent
  | accept
deriving DecidableEq, Repr

/-- A capacity of the TX FIFO: at least the 39 bytes of the largest frame, the constraint the table of OPEN parameters of
`92_eei_decisions.md` sets (D52). No configuration has a smaller one. -/
abbrev TxCapacity := { n : Nat // 39 ≤ n }

/-- A value of `PHY_CONTROL3`: SEND_HARD_RESET (bit 6) is 0, because the block writes the value to Control3 as it is (R162) and
never sets that bit (R43, D26). No configuration has it set (log 28); that the value is a byte is R381's check. -/
abbrev Control3Value := { n : Nat // n.testBit 6 = false }

/-- The configuration registers (R9, R29): inputs fixed at block reset and read-only afterwards. Numbers that R381
checks are wide enough to fail the check. Delays are microseconds, lower bounds (R14). -/
structure Cfg where
  role : Role
  phyBusAddr : BitVec 7
  rev : Nat
  defaultPin : CCPin
  ccSettle : Nat
  pollSleep : Nat
  psRdySettle : Nat
  cancelPause : Nat
  advPeriodIters : Nat
  advMaxRetries : Nat
  advertisedPdos : List Machine.FixedPdo
  hostCurrentCode : Nat
  sinkRoleBits : Nat × Nat
  sourceRoleBits : Nat × Nat
  phyControl3 : Control3Value
  enableSopPrime : Bool
  softResetReply : SoftResetReply
  vdmIdentity : List Byte
  vdmSvids : List Byte
  vdmModes : List Byte
  vdmEnter : List Byte
  vdmDpStatus : List Byte
  vdmDpConfig : List Byte
  fifoUnderflow : Byte
  rxFifoBytes : Nat
  txFifoBytes : TxCapacity
deriving DecidableEq, Repr

/-- The configuration `State.reset` holds. R9 gives the defaults of `rev`, `defaultPin`, the role bits, `phyControl3`,
`enableSopPrime`, `softResetReply` and `fifoUnderflow`; the other values are the model's: DESIGN CHOICE, and PRESUMED
for the bus address and the FIFO sizes of the FUSB302 family (log 12, unsafe for a claim about these values). -/
def Cfg.atReset : Cfg where
  role := .sink
  phyBusAddr := 0x22
  rev := 2
  defaultPin := .cc1
  ccSettle := 1000
  pollSleep := 50
  psRdySettle := 20000
  cancelPause := 100000
  advPeriodIters := 3
  advMaxRetries := 2
  advertisedPdos := [⟨5000, 1500, 0, 0⟩]
  hostCurrentCode := 2
  sinkRoleBits := (0, 0)
  sourceRoleBits := (1, 1)
  phyControl3 := ⟨0x07, by decide⟩
  enableSopPrime := false
  softResetReply := .silent
  vdmIdentity := []
  vdmSvids := []
  vdmModes := []
  vdmEnter := []
  vdmDpStatus := []
  vdmDpConfig := []
  fifoUnderflow := 0x00
  rxFifoBytes := 80
  txFifoBytes := ⟨48, by decide⟩

/-- The comparator code read before it has settled, or with no pin or both pins in the measure mux: any of 0..3 (R155,
R400, I1). Applied to the draw counter. FREE VALUE, log 6. -/
opaque Config.unsettledLevel : Nat → BitVec 2

/-- What the RX FIFO holds after more bytes arrived than fit: any bytes are lost (I15). Applied to the draw counter and
the bytes before the loss. FREE VALUE, log 6. -/
opaque Config.rxOverflow : Nat → List Byte → List Byte

/-- The host's answer to `selectPdo` when none is queued: any answer of its type (R13, I21). FREE VALUE, log 6. -/
opaque Config.selectPdoAnswer : Nat → List Machine.Pdo → Option (Nat × Nat)

/-- The host's answer to `validateProfile` when none is queued: any answer of its type (R13, I21). FREE VALUE, log 6. -/
opaque Config.validateAnswer : Nat → Machine.FixedPdo → Machine.Message → Bool

/-- The DeviceID register: part dependent, any value (R35, I2). FREE VALUE, log 6. -/
opaque Config.deviceId : Byte

end Sys2Proof
end

