-- ==== Sys2Proof/Machine/State.lean ====
section
/-! DEFINITION. The state of the block and of the PHY it drives, the reasons a step can stop, and the state after
block reset. Plain data throughout. Rules: `10_state.md`, `60_exceptions.md` R340 and R366, `70_reset_and_hazards.md`
R380 and R386. -/

namespace Sys2Proof.Machine

/-- The reasons the machine stops with a fault. -/
inductive Fault where
  /-- Raised by `step` when `ctl` is `fault` and no block reset is invoked: the supervisor halts (R388, R351, I23).
  Safe: the block issues nothing until block reset. -/
  | halted
  /-- Raised by a transaction at an address R34 and R53 do not list; no rule makes one (R61). Safe (log 24). -/
  | unmappedRegister (addr : Byte)
  /-- Raised by a write to a read-only or read-clear register; no rule makes one (R63). Safe (log 24). -/
  | readOnlyRegister (addr : Byte)
deriving DecidableEq, Repr

/-- The reasons an instruction is refused. -/
inductive Refusal where
  /-- Raised by `exec` for an instruction without a meaning. Safe. -/
  | notModelled (mnemonic : String)
  /-- Raised by `step` when the invocation's bytes are no encoding of the table: R130, "every other code is unassigned and
  a model refuses it". `reason` numbers the decoder's errors in order. Safe. -/
  | noEncoding (reason : Nat)
  /-- Raised by a multi-byte transaction at an address other than 0x43: R62, "a model given a multi-byte transaction at
  another address refuses it". No rule makes one. Safe. -/
  | multiByteTransaction (addr : Byte)
deriving DecidableEq, Repr

/-! ## Errors and events -/

/-- The direction of a bus transaction (R340). -/
inductive Dir where
  | read
  | write
deriving DecidableEq, Repr

/-- The precondition a CallerError names (R342), with the operands the vectors show. -/
inductive CallerReason where
  | badPin (pin : Nat)
  | badCode (code : Nat)
  | badLength (n : Nat)
  | badHeaderField
  | badCommandName
  | badPdoField
  | badVdmField
  | badRequest
  | badPolicyAnswer (index current : Nat)
  | badConfig
deriving DecidableEq, Repr

/-- The subcodes of UnsupportedConstruction (R340): 1 to 4 in this order. -/
inductive Construction where
  | pdoBattery
  | pdoVariable
  | pdoPps
  | vdmUnstructured
deriving DecidableEq, Repr

/-- An error that surfaces, with its recorded information (R340): codes 1, 2, 3 in this order. `op` is the operation code
of the innermost operation that was running. -/
inductive Err where
  | bus (addr : Byte) (dir : Dir) (n : Nat) (op : Byte)
  | caller (reason : CallerReason) (op : Byte)
  | unsupported (what : Construction) (op : Byte)
deriving DecidableEq, Repr

/-- The eight conditions of the Interrupt register (R52), bit 7 first. -/
inductive IntCond where
  | vbusOk
  | activity
  | compChange
  | crc
  | alert
  | wake
  | collision
  | bcLevel
deriving DecidableEq, Repr

/-- The diagnostic events (R366). -/
inductive Event where
  | ccMeasured (c1 c2 : BitVec 2)
  | discardedByte (b : Byte)
  | received (m : Message)
  | sent (r : SentRecord)
  | interrupts (a b i : Byte)
  | intCondition (c : IntCond)
  | detached
  | noProfileSelected
  | policyRejected (pos : Nat)
  | cancelled
  | fault (e : Err)
deriving DecidableEq, Repr

/-- The host-policy requests (R13). -/
inductive Ask where
  | selectPdo (pdos : List Pdo)
  | onAccept (m : Message)
  | validateProfile (profile : FixedPdo) (m : Message)
  | switchToProfile (profile : FixedPdo) (m : Message)
  | powerOff
deriving DecidableEq, Repr

/-- One primitive of the block as the trace records it (R12, R20, R364): a completed or failed transaction, a delay, an
event, a host exchange. -/
inductive Prim where
  | rd (addr : Byte) (bytes : List Byte)
  | wr (addr : Byte) (bytes : List Byte)
  | busFailed (addr : Byte) (dir : Dir) (n : Nat)
  | wait (d : Nat)
  | emit (e : Event)
  | ask (a : Ask)
deriving DecidableEq, Repr

/-! ## Control and session state -/

/-- The control state (R20). -/
inductive Ctl where
  | setup (role : Role) (k : Nat)
  | flow (role : Role) (phase : Nat)
  | pause (k : Nat)
  | fault (e : Err)
deriving DecidableEq, Repr

/-- The sink flow state (R21). -/
inductive SinkState where
  | awaitingCapabilities
  | requestSent
  | powered
deriving DecidableEq, Repr

/-- The source flow state (R22). -/
inductive SourceState where
  | advertisementSent
  | validateProfile
  | accepted
  | powered
deriving DecidableEq, Repr

/-- A selected profile (R24): the sink keeps an index and a current, the source an index and a Fixed PDO. -/
inductive Selected where
  | sink (index current : Nat)
  | source (index : Nat) (profile : FixedPdo)
deriving DecidableEq, Repr

/-- The session registers (R24). `msgId` is `none` for UNSET (R26). -/
structure Session where
  ccPin : CCPin
  msgId : Option (BitVec 3)
  sentLog : List SentRecord
  sinkState : SinkState
  sourceState : SourceState
  selectedProfile : Option Selected
  profileAccepted : Bool
  advIters : Nat
  advRetries : Nat
deriving DecidableEq, Repr

/-- The creation values of the session (R24, R383). -/
def Session.fresh : Session where
  ccPin := .none
  msgId := none
  sentLog := []
  sinkState := .awaitingCapabilities
  sourceState := .advertisementSent
  selectedProfile := none
  profileAccepted := false
  advIters := 0
  advRetries := 0

/-- The transient state of a parse (R31): the bytes consumed and the partly built message. -/
structure Scan where
  consumed : Nat
  sop : Option Sop
  hdr : Option Header
  dataObjects : List Word32
deriving DecidableEq, Repr

/-! ## The PHY -/

/-- The PHY's R/W registers: address and byte, in the canonical form of `Machine/Memory.lean`. -/
abbrev Memory := List Host.Cell

/-- A frame the PHY sent on the cable (R66): the CC pins its transmitter was on, the payload and the CRC where the
JAM_CRC token stood, whether the tokens spelt SOP and EOP, how often it was sent, and whether GoodCRC came. -/
structure WireFrame where
  txcc1 : Bool
  txcc2 : Bool
  sop : Bool
  payload : List Byte
  crc : Option Word32
  eop : Bool
  off : Bool
  copies : Nat
  acked : Bool
deriving DecidableEq, Repr

/-- A GoodCRC the PHY answered a received frame with (R37, R67): the pins its transmitter was on, the SOP kind, the two header
bytes. -/
structure GoodCrc where
  txcc1 : Bool
  txcc2 : Bool
  sop : Sop
  header : List Byte
deriving DecidableEq, Repr

/-- What the PHY puts on the cable: a frame of the TX FIFO (R66), its own GoodCRC (R67), its own Soft Reset, acknowledged or
not, and the Hard Reset ordered set (R43). -/
inductive WireEvent where
  | frame (f : WireFrame)
  | goodCrc (g : GoodCrc)
  | softReset (acked : Bool)
  | hardReset
deriving DecidableEq, Repr

/-- The PHY (R34 to R55): its R/W registers, its live status, its interrupt latches, its FIFOs and hidden state. -/
structure Phy where
  regs : Memory
  status1a : Byte
  status0 : BitVec 6
  status1 : BitVec 4
  intA : Byte
  intB : Byte
  intI : Byte
  rx : List Byte
  tx : List Byte
  txGo : Bool
  cc1 : BitVec 2
  cc2 : BitVec 2
  settle : Nat
  wire : List WireEvent
deriving DecidableEq, Repr

/-- The PHY after its own power-on (R386). Where R386 says `any value` (Status0, Status1A, the levels behind BC_LVL) the
model takes 0: DESIGN CHOICE, log 26. -/
def Phy.powerOn : Phy where
  regs := []
  status1a := 0
  status0 := 0
  status1 := 0
  intA := 0
  intB := 0
  intI := 0
  rx := []
  tx := []
  txGo := false
  cc1 := 0
  cc2 := 0
  settle := 0
  wire := []

/-! ## Inputs of the model -/

/-- Whether a transaction completes, or fails with its own effect done or not done (R63, I3). -/
inductive BusFate where
  | completes
  | failsDone
  | failsUndone
deriving DecidableEq, Repr

/-- How a transmission ends (R66): acknowledged after so many retransmissions, or not at all; in the second case, whether the
Soft Reset the PHY may then send is acknowledged (R43). -/
inductive TxEnd where
  | acked (retries : BitVec 2)
  | failed (softAcked : Bool)
deriving DecidableEq, Repr

/-- A frame with a valid CRC that reaches the PHY on the pin it monitors (R67): its SOP kind, header and data bytes. -/
structure RxFrame where
  sop : Sop
  byte0 : Byte
  byte1 : Byte
  data : List Byte
deriving DecidableEq, Repr

/-- One asynchronous change of the PHY (R80): the end of a transmission (R66), bytes of any kind appended to the RX FIFO, a
frame received (R67), interrupt bits latched, a comparator level or a live status changed. -/
inductive PhyAct where
  | transmit (e : TxEnd)
  | bytes (bs : List Byte)
  | receive (f : RxFrame)
  | latch (a b i : Byte)
  | cc1 (level : BitVec 2)
  | cc2 (level : BitVec 2)
  | status0 (v : BitVec 6)
  | status1 (v : BitVec 4)
  | status1a (v : Byte)
deriving DecidableEq, Repr

/-- What the PHY does at one transaction boundary, any number of changes in order, and the fate of the transaction that
follows (R80): environment draws. -/
structure EnvStep where
  acts : List PhyAct := []
  bus : BusFate := .completes
deriving DecidableEq, Repr

/-- What a primitive answered, or what the block read between two primitives. -/
inductive Val where
  | unit
  | bytes (bs : List Byte)
  | flag (b : Bool)
  | choice (c : Option (Nat × Nat))
  | id (i : BitVec 3)
  | log (rs : List SentRecord)
deriving DecidableEq, Repr

/-- An entry of the position within an operation (R20): a primitive done, with its answer, or a value read between two
primitives. -/
inductive Note where
  | did (v : Val)
  | saw (v : Val)
deriving DecidableEq, Repr

/-- The operations that scan for a marker, which R201 does not bound: one that was invoked and has not ended is under way in
the steps after its own (log 18). -/
inductive Running where
  | parseMessage
  | rxStep
  | pollIteration
deriving DecidableEq, Repr

/-- An operation or a wire encoding invoked on its own: the format its bytes are read in, and the bytes (log 1). -/
structure Invocation where
  format : Format
  bytes : List Byte
deriving DecidableEq, Repr

/-- What an instruction returns (log 16). -/
inductive Value where
  | none
  | unit
  | pin (p : CCPin)
  | level (c : BitVec 2)
  | conditions (cs : List IntCond)
  | intBytes (a b i : Byte)
  | rxState (empty full : Bool)
  | bytes (bs : List Byte)
  | message (m : Message)
  | notReady
  | header (h : Header)
  | pdo (p : Pdo)
  | pdos (ps : List Pdo)
  | vdm (v : VdmHeader)
  | request (r : Request)
  | name (n : MsgName)
  | msgId (id : BitVec 3)
  | attached (yes : Bool)
  | choice (c : Option (Nat × Nat))
deriving DecidableEq, Repr

/-! ## The state -/

/-- Everything: configuration, control and error status, the position within the operation under way (R20) and which invoked
operation that is, if it is one and not the supervisor's own (log 18), session, transient codec state, PHY, outputs, and the
model's own inputs and bookkeeping (INVENTORY.md, State). -/
structure State where
  cfg : Cfg
  ctl : Ctl
  notes : List Note
  running : Option Running
  lastError : Option Err
  ses : Session
  scan : Option Scan
  phy : Phy
  diag : List Event
  trace : List Prim
  env : List EnvStep
  stops : List Bool
  selects : List (Option (Nat × Nat))
  validates : List Bool
  draws : Nat
  port : Option Invocation
  result : Value
deriving DecidableEq, Repr

/-- The state right after block reset (R380), for the configuration `Cfg.atReset`, which passes R381: `ctl` is step 0 of
setup, no error, an empty diagnostic stream. Block reset leaves the PHY alone (R382): it stands at its own power-on
values. The session is not yet created; it holds its creation values (log 13). -/
def State.reset : State where
  cfg := Cfg.atReset
  ctl := .setup Cfg.atReset.role 0
  notes := []
  running := none
  lastError := none
  ses := Session.fresh
  scan := none
  phy := Phy.powerOn
  diag := []
  trace := []
  env := []
  stops := []
  selects := []
  validates := []
  draws := 0
  port := none
  result := .none

end Sys2Proof.Machine
end

