-- ==== Sys2Proof/Machine/Operands.lean ====
section
/-! DEFINITION. Operand forms: bit fields, scaling units, the type tables, header and data-object records, and the
messages, profiles and PDO lists an instruction's operands stand for (`30_encoding.md`, R127). -/

namespace Sys2Proof.Machine

/-- The field `W[hi:lo]`, zero-extended (R11). -/
def fld {n : Nat} (w : BitVec n) (hi lo : Nat) : Nat := w.toNat / 2 ^ lo % 2 ^ (hi + 1 - lo)

/-! ## Type tables -/

/-- The 24-entry Control table, index = messageType (R114). -/
def controlTable : List MsgName :=
  [.reserved, .goodCrc, .gotoMin, .accept, .reject, .ping,
   .psRdy, .getSourceCap, .getSinkCap, .drSwap, .prSwap, .vconnSwap,
   .wait, .softReset, .dataReset, .dataResetComplete, .notSupported, .getSourceCapExtended,
   .getStatus, .frSwap, .getPpsStatus, .getCountryCodes, .getSinkCapExtended, .getSourceInfo]

/-- The 16-entry Data table, index = messageType (R115). -/
def dataTable : List MsgName :=
  [.reserved, .sourceCapabilities, .request, .bist, .sinkCapabilities, .batteryStatus,
   .alert, .getCountryInfo, .enterUsb, .eprRequest, .eprMode, .sourceInfo,
   .revision, .reserved, .reserved, .vendorDefined]

/-- The table a class selects (R111). -/
def typeTable : MsgClass → List MsgName
  | .control => controlTable
  | .data => dataTable

/-- `TYPE_LOOKUP` (R222, R116). -/
def typeLookup (cls : MsgClass) (t : BitVec 5) : MsgName := ((typeTable cls)[t.toNat]?).getD (.unknown t)

/-- The class of an object count (R111). -/
def classOf (n : Nat) : MsgClass := if n = 0 then .control else .data

/-! ## Data objects -/

/-- `PARSE_PDO`'s Fixed case: `current = W[9:0]*10`, `voltage = W[19:10]*50`, peak `W[21:20]`, flags `W[29:22]` (R118). -/
def fixedPdoOf {n : Nat} (w : BitVec n) : FixedPdo where
  voltage_mV := fld w 19 10 * 50
  maxCurrent_mA := fld w 9 0 * 10
  peakCurrentCode := fld w 21 20
  extraFlags := fld w 29 22

/-- `PARSE_PDO` (R212). -/
def parsePdo (w : Word32) : Pdo :=
  match fld w 31 30 with
  | 0 => .fixed (fixedPdoOf w)
  | 1 => .battery (fld w 29 20 * 50) (fld w 19 10 * 50) (fld w 9 0 * 250)
  | 2 => .variablePdo (fld w 29 20 * 50) (fld w 19 10 * 50) (fld w 9 0 * 10)
  | _ => .pps (fld w 29 28) (fld w 27 27) (fld w 24 17 * 100) (fld w 15 8 * 100) (fld w 6 0 * 50)

/-- `PARSE_VDM_HEADER` (R217). -/
def parseVdmHeader (w : Word32) : VdmHeader :=
  if fld w 15 15 = 1 then
    .structured (BitVec.ofNat 16 (fld w 31 16)) (BitVec.ofNat 4 (fld w 14 11)) (BitVec.ofNat 3 (fld w 10 8))
      (BitVec.ofNat 2 (fld w 7 6)) (BitVec.ofNat 5 (fld w 4 0))
  else .unstructured (BitVec.ofNat 16 (fld w 31 16)) (BitVec.ofNat 15 (fld w 14 0))

/-- `PARSE_REQUEST` (R221). -/
def parseRequest (w : Word32) : Request where
  objectPosition := fld w 31 28
  operatingCurrent_mA := fld w 19 10 * 10
  maxOperatingCurrent_mA := fld w 9 0 * 10
  flags := fld w 27 20

/-- The data objects of a byte string whose length is a multiple of 4, in FIFO order (R204). -/
def objectsOf : List Byte → List Word32
  | b0 :: b1 :: b2 :: b3 :: rest => wordOf b0 b1 b2 b3 :: objectsOf rest
  | _ => []

/-! ## Headers and messages -/

/-- The header record of header bits, an object count and a type (R110, R112). -/
def headerOf (b : MsgBits) (n : BitVec 3) (t : BitVec 5) : Header where
  extended := b.extended
  numDataObjects := n
  messageId := b.messageId
  bit0 := b.bit0
  powerRole := match b.sop with
    | .primary => some b.bit0
    | .prime => none
  revision := b.revision
  dataRole := b.dataRole
  messageType := t

/-- `DECODE_HEADER` (R203). -/
def decodeHeader (sop : Sop) (byte0 byte1 : Byte) : Header :=
  headerOf (headerBits sop byte0 byte1) (headerCount byte0) (headerType byte1)

/-- The message a parse builds from its SOP kind, header and data objects (R200, R206, R207). -/
def buildMessage (sop : Sop) (hdr : Header) (objs : List Word32) : Message :=
  let cls := classOf hdr.numDataObjects.toNat
  let name := typeLookup cls hdr.messageType
  { sop := sop, hdr := hdr, cls := cls, name := name, dataObjects := objs
    vdm := if name = .vendorDefined then objs.head?.map parseVdmHeader else none }

/-- The message with the given header bits, type and objects; its object count is the number of objects (R110). -/
def messageOf (b : MsgBits) (t : BitVec 5) (objs : List Word32) : Message :=
  buildMessage b.sop (headerOf b (BitVec.ofNat 3 objs.length) t) objs

/-- The message a `DISPATCH` operand stands for. -/
def operandMessage (m : MsgOperand) : Message := messageOf m.bits m.messageType m.objects

/-- The Data message of type `t` an operand stands for. -/
def dataMessage (t : BitVec 5) (m : DataOperand) : Message := messageOf m.bits t (m.first :: m.others)

/-- The Accept or PS_RDY message an operand stands for (R292). -/
def acceptMessage (psRdy : Bool) (b : MsgBits) : Message := messageOf b (if psRdy then 6#5 else 3#5) []

/-- `PARSE_PDO_LIST` (R216); also the PDO list an operand stands for. -/
def parsePdoList (objs : List Word32) : List Pdo := objs.map parsePdo

/-- The Fixed PDO a 30-bit operand stands for (R118). -/
def profileOf (w : BitVec 30) : FixedPdo := fixedPdoOf w

/-- The data object of a PDO row (R117). -/
def pdoWord (type : BitVec 2) (body : BitVec 30) : Word32 := type ++ body

/-- The value of an unstructured VDM header (R123). -/
def unstructuredWord (svid : BitVec 16) (payload : BitVec 15) : Word32 := svid ++ 0#1 ++ payload

/-- The value of an RDO (R126). -/
def rdoWord (pos : BitVec 4) (flags : BitVec 6) (cur max : BitVec 10) : Word32 := pos ++ flags ++ 0#2 ++ cur ++ max

/-! ## Pins and roles -/

/-- The pin number of a detected pin (R154): 0 for None. -/
def pinNumber : CCPin → Nat
  | .none => 0
  | .cc1 => 1
  | .cc2 => 2

/-- `SINK_ROLE_BITS` or `SOURCE_ROLE_BITS` (R160, R252). -/
def roleBits (cfg : Cfg) : Role → Nat × Nat
  | .sink => cfg.sinkRoleBits
  | .source => cfg.sourceRoleBits

/-- The next message ID: UNSET goes to 0, then mod 8 (R251). -/
def nextId : Option (BitVec 3) → BitVec 3
  | none => 0
  | some i => i + 1

end Sys2Proof.Machine
end

