-- ==== Sys2Proof/Machine/Codec.lean ====
section
/-! DEFINITION. The Frame Codec's building functions, pure (R223): header, command, Fixed PDO, VDM header, request, and
the reference policy of R313. Each answers a value or the error its rule raises. -/

namespace Sys2Proof.Machine

/-- The error a pure codec operation raises; the operation code is added where it is raised. -/
inductive CodecError where
  | caller (r : CallerReason)
  | unsupported (c : Construction)
deriving DecidableEq, Repr

/-- The error as recorded, with the operation that was running (R340). -/
def codecErr (op : Byte) : CodecError → Err
  | .caller r => .caller r op
  | .unsupported c => .unsupported c op

/-- The two header bytes of fields in range (R209). -/
def headerFieldBytes (ext n id rev pr dr t : Nat) : List Byte :=
  [BitVec.ofNat 8 (ext * 128 + n * 16 + id * 2 + pr), BitVec.ofNat 8 (rev * 64 + dr * 32 + t)]

/-- `ENCODE_HEADER` (R209). -/
def encodeHeader (ext n id rev pr dr t : Nat) : Except CodecError (List Byte) :=
  if ext > 1 ∨ n > 7 ∨ id > 7 ∨ rev > 3 ∨ pr > 1 ∨ dr > 1 ∨ t > 31 then .error (.caller .badHeaderField)
  else .ok (headerFieldBytes ext n id rev pr dr t)

/-- The index of a command's name in the table of a class; `Reserved` and absent names have none (R210, R211). -/
def commandIndex (cls : MsgClass) (command : MsgName) : Option Nat :=
  if command = .reserved then none else (typeTable cls).findIdx? fun n => n == command

/-- `ENCODE_COMMAND` (R210) with its checks in the order R211 lists them (R354). Which reason names which check of R211
is the model's (log 15). -/
def encodeCommand (command : MsgName) (dataObjects : List Byte) (messageId revision powerRole dataRole : Nat) :
    Except CodecError (List Byte) :=
  if dataObjects.length % 4 ≠ 0 ∨ dataObjects.length > 28 then .error (.caller (.badLength dataObjects.length))
  else
    match commandIndex (classOf dataObjects.length) command with
    | none => .error (.caller .badCommandName)
    | some t =>
      if messageId > 7 ∨ revision > 3 ∨ powerRole > 1 ∨ dataRole > 1 then .error (.caller .badHeaderField)
      else
        .ok (headerFieldBytes 0 (dataObjects.length / 4) messageId revision powerRole dataRole t ++ dataObjects)

/-- The operands `BUILD_FIXED_PDO` accepts (R213). -/
def validFixedPdo (v c p f : Nat) : Bool :=
  decide (v % 50 = 0 ∧ v ≤ 51150 ∧ c % 10 = 0 ∧ c ≤ 10230 ∧ p ≤ 3 ∧ f ≤ 255)

/-- The value of a Fixed PDO, `f<<22 | p<<20 | (v/50)<<10 | (c/10)` (R213). -/
def fixedPdoWord (v c p f : Nat) : Word32 :=
  BitVec.ofNat 32 (f * 2 ^ 22 + p * 2 ^ 20 + v / 50 * 2 ^ 10 + c / 10)

/-- `BUILD_FIXED_PDO` (R213), as the value of the 4-byte string. -/
def buildFixedPdo (v c p f : Nat) : Except CodecError Word32 :=
  if validFixedPdo v c p f then .ok (fixedPdoWord v c p f) else .error (.caller .badPdoField)

/-- The construction a kind names (R214). -/
def kindConstruction : PdoKind → Construction
  | .battery => .pdoBattery
  | .variablePdo => .pdoVariable
  | .pps => .pdoPps

/-- `BUILD_PDO` (R214): unsupported whatever the fields are. -/
def buildPdo (kind : PdoKind) (_fields : List Byte) : Except CodecError (List Byte) :=
  .error (.unsupported (kindConstruction kind))

/-- The value of a structured VDM header of fields in range, `W[5] = 0` (R218). -/
def vdmHeaderWord (svid version objectPosition commandType command : Nat) : Word32 :=
  BitVec.ofNat 32
    (svid * 2 ^ 16 + 2 ^ 15 + version * 2 ^ 11 + objectPosition * 2 ^ 8 + commandType * 2 ^ 6 + command)

/-- `BUILD_VDM_HEADER` (R218): the header's bytes, then the payload (D57). -/
def buildVdmHeader (fields : VdmFields) (extraPayload : List Byte) : Except CodecError (List Byte) :=
  match fields with
  | .unstructured _ _ => .error (.unsupported .vdmUnstructured)
  | .structured svid v p ct c =>
    if c.toNat > 31 ∨ ct.toNat > 3 ∨ p.toNat > 7 ∨ v.toNat > 15 ∨ svid.toNat > 0xFFFF ∨
        extraPayload.length % 4 ≠ 0 ∨ extraPayload.length > 24 then
      .error (.caller .badVdmField)
    else .ok (wordBytes (vdmHeaderWord svid.toNat v.toNat p.toNat ct.toNat c.toNat) ++ extraPayload)

/-- `BUILD_VDM_UNSTRUCTURED` (R219): unsupported before looking at the operands. -/
def buildVdmUnstructured (_svid : BitVec 16) (_payload : BitVec 15) (_extra : List Byte) :
    Except CodecError (List Byte) :=
  .error (.unsupported .vdmUnstructured)

/-- The operands an RDO can carry (R220, R291). -/
def encodableRequest (index current : Nat) : Bool :=
  decide (index ≤ 6 ∧ current % 10 = 0 ∧ current ≤ 10230)

/-- The value of a request, both current fields equal (R220). -/
def requestWord (index current : Nat) : Word32 :=
  BitVec.ofNat 32 ((index + 1) * 2 ^ 28 + current / 10 * 2 ^ 10 + current / 10)

/-- `BUILD_REQUEST` (R220), as the value of the 4-byte string. -/
def buildRequest (index current : Nat) : Except CodecError Word32 :=
  if encodableRequest index current then .ok (requestWord index current) else .error (.caller .badRequest)

/-- `SELECT_PDO_FOR_VOLTAGE` from list index `i` on (R313): the first Fixed PDO of exactly `volts * 1000` mV. -/
def selectPdoFrom (volts : Nat) : Nat → List Pdo → Option (Nat × Nat)
  | _, [] => none
  | i, .fixed p :: rest =>
    if p.voltage_mV = volts * 1000 then some (i, p.maxCurrent_mA) else selectPdoFrom volts (i + 1) rest
  | i, _ :: rest => selectPdoFrom volts (i + 1) rest

/-- `SELECT_PDO_FOR_VOLTAGE` (R313). -/
def selectPdoForVoltage (pdos : List Pdo) (volts : Nat) : Option (Nat × Nat) := selectPdoFrom volts 0 pdos

/-- The configuration check of block reset (R381). `ROLE` and `SOFT_RESET_REPLY` have no value outside their sets,
`ADV_MAX_RETRIES` none below 0. -/
def checkConfig (c : Cfg) : Bool :=
  decide (c.rev ≤ 3 ∧ c.defaultPin ≠ .none ∧ c.hostCurrentCode ≤ 3 ∧ c.sinkRoleBits.1 ≤ 1 ∧ c.sinkRoleBits.2 ≤ 1 ∧
    c.sourceRoleBits.1 ≤ 1 ∧ c.sourceRoleBits.2 ≤ 1 ∧ c.phyControl3.val ≤ 255 ∧ 1 ≤ c.advPeriodIters ∧
    1000 ≤ c.ccSettle) &&
  [c.vdmIdentity, c.vdmSvids, c.vdmModes, c.vdmEnter, c.vdmDpStatus, c.vdmDpConfig].all
    (fun v => decide (v.length % 4 = 0 ∧ v.length ≤ 24)) &&
  (match c.role with
    | .sink => true
    | .source =>
      decide (1 ≤ c.advertisedPdos.length ∧ c.advertisedPdos.length ≤ 7) &&
      c.advertisedPdos.all fun p => validFixedPdo p.voltage_mV p.maxCurrent_mA p.peakCurrentCode p.extraFlags)

end Sys2Proof.Machine
end

