-- ==== Sys2Proof/Machine/Memory.lean ====
section
/-! DEFINITION. The PHY contract as a table (R34, D3: the FUSB302 map, a configuration table and not a claim of the
source) and the R/W registers as a memory: address and byte pairs in one canonical form. -/

namespace Sys2Proof.Machine

/-- Access kinds of a PHY register (R34, R63). -/
inductive Access where
  | readOnly
  | readWrite
  | readClear
  | writeAct
  | fifo
deriving DecidableEq, Repr

/-- One row of the PHY contract: address, access kind, reset value (R386), the bits that act when 1 is written and read
back 0 (`W/C`), and the reserved bits that read 0. -/
structure RegInfo where
  addr : Nat
  access : Access
  reset : Byte
  act : Byte
  zero : Byte
deriving DecidableEq, Repr

/-- The PHY register map (R34 to R53) with the reset values of R386. -/
def phyMap : List RegInfo :=
  [⟨0x01, .readOnly, 0x00, 0x00, 0x00⟩,   -- DeviceID, R35 (its value is `Config.deviceId`)
   ⟨0x02, .readWrite, 0x03, 0x00, 0x00⟩,  -- Switches0, R36
   ⟨0x03, .readWrite, 0x20, 0x00, 0x08⟩,  -- Switches1, R37: bit 3 reads 0
   ⟨0x04, .readWrite, 0x31, 0x00, 0x00⟩,  -- Measure, R38
   ⟨0x06, .readWrite, 0x24, 0x41, 0x00⟩,  -- Control0, R40: TX_FLUSH, TX_START
   ⟨0x07, .readWrite, 0x00, 0x04, 0x00⟩,  -- Control1, R41: RX_FLUSH
   ⟨0x08, .readWrite, 0x02, 0x00, 0x00⟩,  -- Control2, R42
   ⟨0x09, .readWrite, 0x06, 0x40, 0x00⟩,  -- Control3, R43: SEND_HARD_RESET
   ⟨0x0A, .readWrite, 0x00, 0x00, 0x00⟩,  -- Mask1, R44
   ⟨0x0B, .readWrite, 0x01, 0x00, 0x00⟩,  -- Power, R45
   ⟨0x0C, .writeAct, 0x00, 0x03, 0xFC⟩,   -- Reset, R46: PD_RESET, SW_RES
   ⟨0x0E, .readWrite, 0x00, 0x00, 0x00⟩,  -- Maska, R47
   ⟨0x0F, .readWrite, 0x00, 0x00, 0x00⟩,  -- Maskb, R48
   ⟨0x3D, .readOnly, 0x00, 0x00, 0x00⟩,   -- Status1A, R49
   ⟨0x3E, .readClear, 0x00, 0x00, 0x00⟩,  -- InterruptA, R50
   ⟨0x3F, .readClear, 0x00, 0x00, 0xFE⟩,  -- InterruptB, R51
   ⟨0x40, .readOnly, 0x00, 0x00, 0x00⟩,   -- Status0, R53
   ⟨0x41, .readOnly, 0x28, 0x00, 0x00⟩,   -- Status1, R53
   ⟨0x42, .readClear, 0x00, 0x00, 0x00⟩,  -- Interrupt, R52
   ⟨0x43, .fifo, 0x00, 0x00, 0x00⟩]       -- FIFO, R54

/-- The contract row of an address, if the map has one (R61). -/
def regInfo (a : Nat) : Option RegInfo := phyMap.find? fun r => r.addr == a

/-- What an unlisted address of the register memory reads as: the register's reset value (R386), 0 where no register is
(never accessed, R61). -/
def regReset (a : Nat) : Byte :=
  match regInfo a with
  | some r => r.reset
  | none => 0

/-- The byte at an address of the register memory. -/
def regRead : Memory → Nat → Byte
  | [], a => regReset a
  | (k, b) :: rest, a => if k = a then b else regRead rest a

/-- The memory with one byte written, in canonical form: writing what the address reads as unlisted removes its entry. -/
def regWrite : Memory → Nat → Byte → Memory
  | [], a, b => if b = regReset a then [] else [(a, b)]
  | (k, v) :: rest, a, b =>
    if a < k then (if b = regReset a then (k, v) :: rest else (a, b) :: (k, v) :: rest)
    else if a = k then (if b = regReset a then rest else (a, b) :: rest)
    else (k, v) :: regWrite rest a b

/-- The canonical form: addresses strictly rising, no entry equal to what its address reads as unlisted. -/
def Memory.wf : Memory → Bool
  | [] => true
  | (k, v) :: rest => decide (v ≠ regReset k) && rest.all (fun c => decide (k < c.1)) && Memory.wf rest

end Sys2Proof.Machine
end

