-- ==== Sys2Proof/Machine/Flags.lean ====
section
/-! DEFINITION. The flags a rule reads (R33): the RX-empty and RX-full bits of Status1, the eight bits of the Interrupt
register, and the interrupt pin level. Written whole: Status0 and Status1 as the PHY composes them (R53), and which
latched bits reach the pin (R85). -/

namespace Sys2Proof.Machine

/-- Status1: bits 7, 6, 1, 0 live, RX_EMPTY 5, RX_FULL 4, TX_EMPTY 3, TX_FULL 2 from the FIFOs (R53, log 8). -/
def status1Byte (cfg : Cfg) (p : Phy) : Byte :=
  p.status1.extractLsb' 2 2 ++ BitVec.ofBool p.rx.isEmpty ++ BitVec.ofBool (decide (cfg.rxFifoBytes ≤ p.rx.length)) ++
    BitVec.ofBool p.tx.isEmpty ++ BitVec.ofBool (decide (cfg.txFifoBytes.val ≤ p.tx.length)) ++ p.status1.extractLsb' 0 2

/-- Status0 with a comparator code in bits 1:0 (R53). -/
def status0Byte (p : Phy) (level : BitVec 2) : Byte := p.status0 ++ level

/-- The settled comparator code: the level of the one pin in the measure mux, if exactly one is and the comparator has
settled (R36, R53, R400, log 8). The spec leaves open, and the model chooses (DESIGN CHOICE, unsafe): the comparator works
whatever PWR of the Power register is (R45, log 34), and whatever Measure MEAS_VBUS and MDAC are (R38, log 35). -/
def settledLevel (p : Phy) : Option (BitVec 2) :=
  let sw := regRead p.regs 0x02
  if p.settle = 0 then
    if sw.getLsbD 2 && !sw.getLsbD 3 then some p.cc1
    else if sw.getLsbD 3 && !sw.getLsbD 2 then some p.cc2
    else none
  else none

/-- The (empty, full) pair of a Status1 byte: bits 5 and 4 (R173). -/
def rxFlags (status1 : Byte) : Bool × Bool := (status1.getLsbD 5, status1.getLsbD 4)

/-- The eight conditions with their bit positions, bit 7 first (R52). -/
def intConditions : List (Nat × IntCond) :=
  [(7, .vbusOk), (6, .activity), (5, .compChange), (4, .crc), (3, .alert), (2, .wake), (1, .collision), (0, .bcLevel)]

/-- `DECODE_INT` (R171): the conditions of the set bits, bit 7 first (R287). -/
def decodeInt (i : Byte) : List IntCond :=
  (intConditions.filter fun c => i.getLsbD c.1).map Prod.snd

/-- The latched bits that are not masked (R85, R356). -/
def pendingUnmasked (p : Phy) : Bool :=
  decide (p.intI &&& ~~~(regRead p.regs 0x0A) ≠ 0 ∨ p.intA &&& ~~~(regRead p.regs 0x0E) ≠ 0 ∨
    p.intB &&& ~~~(regRead p.regs 0x0F) ≠ 0)

/-- The interrupt pin: asserted exactly when INT_MASK is 0 and an unmasked latched bit is set (R85). -/
def intPin (p : Phy) : Bool := !(regRead p.regs 0x06).getLsbD 5 && pendingUnmasked p

end Sys2Proof.Machine
end

