-- ==== Sys2Proof/Machine/Phy.lean ====
section
/-! DEFINITION. The PHY: what a bus transaction does to it (R60 to R69), how it transmits (R66, R102 to R104), receives and
answers (R67), and what one entry of the environment's schedule changes (R80). The CRC is the one of
`93_implementation_defined.md` Part 3, general knowledge there (log 27). -/

namespace Sys2Proof.Machine

/-! ## Transmission -/

/-- One bit of the reflected CRC-32 (93, Part 3). -/
def crcBit (c : Word32) : Word32 := if c.getLsbD 0 then (c >>> 1) ^^^ 0xEDB88320#32 else c >>> 1

/-- One byte of the reflected CRC-32. -/
def crcByte (c : Word32) (b : Byte) : Word32 :=
  crcBit (crcBit (crcBit (crcBit (crcBit (crcBit (crcBit (crcBit (c ^^^ b.setWidth 32))))))))

/-- The CRC-32 of a byte string; it is sent low byte first (93, Part 3). -/
def crc32 (bs : List Byte) : Word32 := ~~~(bs.foldl crcByte 0xFFFFFFFF#32)

/-- What the PHY has made of the tokens before TXON: the SYNC tokens, the payload and how much of it is still to come, the
CRC where JAM_CRC stood, EOP and TXOFF (R102 to R104). -/
structure TxView where
  syncs : List Byte
  payload : List Byte
  left : Nat
  crc : Option Word32
  eop : Bool
  off : Bool
deriving DecidableEq, Repr

/-- Nothing read yet. -/
def txStart : TxView := ⟨[], [], 0, none, false, false⟩

/-- One token other than TXON (R102 to R104): SYNC tokens build the ordered set, PACKSYM announces payload bytes, JAM_CRC
inserts the CRC of the packed bytes, EOP and TXOFF are noted. A byte that is no token of R102 to R104, outside a payload
(a partial frame left by a BusError can put one there), is skipped: the spec does not say what the PHY does with one.
DESIGN CHOICE, log 29, unsafe for a claim about such a transmission. -/
def txToken (v : TxView) (b : Byte) : TxView :=
  if b = 0x12 ∨ b = 0x13 then { v with syncs := v.syncs ++ [b] }
  else if b.extractLsb' 5 3 = 0b100#3 then { v with left := (b.extractLsb' 0 5).toNat }
  else if b = 0xFF then { v with crc := some (crc32 v.payload) }
  else if b = 0x14 then { v with eop := true }
  else if b = 0xFE then { v with off := true }
  else v

/-- Read the TX FIFO up to the first TXON token, or to its end when TX_START was written: what it describes, and the bytes
left (R66). Bytes a PACKSYM token announced are payload, whatever their value, also the tokens of a later frame after a payload
cut short; a second PACKSYM adds to the payload and a second SYNC set to the ordered set. The spec does not say what tokens
that spell no whole frame do: DESIGN CHOICE, log 36, unsafe for a claim about such a transmission. Nor does it say what
TX_START does while the FIFO holds no SYNC token and no TXON: nothing is sent, and the start stays pending for bytes written
later. DESIGN CHOICE, log 39, unsafe for a claim about such a start, which no instruction makes. -/
def txTake (go : Bool) : TxView → List Byte → Option (TxView × List Byte)
  | v, [] => if go && !v.syncs.isEmpty then some (v, []) else none
  | v, b :: rest =>
    if 0 < v.left then txTake go { v with payload := v.payload ++ [b], left := v.left - 1 } rest
    else if b = 0xA1 then some (v, rest)
    else txTake go (txToken v b) rest

/-- Whether GoodCRC came (R66). -/
def txAcked : TxEnd → Bool
  | .acked _ => true
  | .failed _ => false

/-- How often a frame is sent: once and, with AUTO_RETRY, again up to N_RETRIES times until GoodCRC comes (R43, R66). -/
def txCopies (p : Phy) (e : TxEnd) : Nat :=
  let control3 := regRead p.regs 0x09
  let retries := if control3.getLsbD 0 then (control3.extractLsb' 1 2).toNat else 0
  match e with
  | .acked k => 1 + min k.toNat retries
  | .failed _ => 1 + retries

/-- The frame the tokens read describe, as it goes on the cable: on the pins Switches1 selects, sent as often as its end says
(R66). -/
def wireFrame (p : Phy) (v : TxView) (e : TxEnd) : WireFrame :=
  let sw := regRead p.regs 0x03
  { txcc1 := sw.getLsbD 0, txcc2 := sw.getLsbD 1, sop := v.syncs == [0x12, 0x12, 0x12, 0x13], payload := v.payload
    crc := v.crc, eop := v.eop, off := v.off, copies := txCopies p e, acked := txAcked e }

/-- What the PHY sends by itself after a transmission ended (R43): after failed retries a Soft Reset with AUTO_SOFTRESET, and
after that failed too a Hard Reset with AUTO_HARDRESET. Which event counts as which is DEDUCED, log 33. -/
def txRecovery (p : Phy) (e : TxEnd) : List WireEvent :=
  let control3 := regRead p.regs 0x09
  match e with
  | .acked _ => []
  | .failed softAcked =>
    if control3.getLsbD 3 then
      .softReset softAcked :: (if !softAcked && control3.getLsbD 4 then [.hardReset] else [])
    else []

/-- The PHY takes the first TXON token: it sends the frame the tokens before it describe on the pins of Switches1, consumes its
bytes, latches I_TXSENT (acknowledged) or I_RETRYFAIL (R66, R50), and recovers by itself if Control3 says so (R43). Without
a TXON token (or TX_START) nothing happens. The spec leaves open, and the model chooses (DESIGN CHOICE, unsafe): the bit
latches whatever its mask in Maska is (R356, log 30); with TXCC1 = TXCC2 = 0 the frame is consumed, recorded with no pin, and
ends like any other (log 31); it is sent whatever PWR of the Power register (R45, log 34) and the BIST and AUTO_PRE bits are
(log 35); a TXON whose tokens before it spell no whole frame, also a TXON alone, is taken, recorded as what it spells and ends
like any other (log 36). -/
def phyTransmit (e : TxEnd) (p : Phy) : Phy :=
  match txTake p.txGo txStart p.tx with
  | none => p
  | some (v, rest) =>
    { p with
      tx := rest
      txGo := false
      intA := p.intA ||| (if txAcked e then 0x04 else 0x10)
      wire := p.wire ++ (.frame (wireFrame p v e) :: txRecovery p e) }

/-! ## Reception -/

/-- Whether `n` bytes that arrive do not fit the RX FIFO (I15). -/
def rxOverflows (cfg : Cfg) (p : Phy) (n : Nat) : Bool := decide (cfg.rxFifoBytes < p.rx.length + n)

/-- Bytes arrive at the RX FIFO (R67): appended, or, past its capacity, any content of at most that many bytes (I15: a free
value, one draw). -/
def rxArrive (new : List Byte) (s : State) : State :=
  if rxOverflows s.cfg s.phy new.length then
    { s with
      phy := { s.phy with rx := (Config.rxOverflow s.draws (s.phy.rx ++ new)).take s.cfg.rxFifoBytes }
      draws := s.draws + 1 }
  else { s with phy := { s.phy with rx := s.phy.rx ++ new } }

/-- Whether the PHY is enabled for frames of a SOP kind (R67): primary SOP always, SOP′ with Control1 ENSOP1. -/
def receives (p : Phy) : Sop → Bool
  | .primary => true
  | .prime => (regRead p.regs 0x07).getLsbD 0

/-- The marker byte of a SOP kind (R67, R106). -/
def markerByte : Sop → Byte
  | .primary => 0xE0
  | .prime => 0xC0

/-- What a received frame puts into the RX FIFO (R67): marker, header and data bytes, the CRC low byte first (93 Part 3, log
27). -/
def rxFrameBytes (f : RxFrame) : List Byte :=
  let body := f.byte0 :: f.byte1 :: f.data
  markerByte f.sop :: body ++ wordBytes (crc32 body)

/-- The header of the PHY's GoodCRC (R37, R67, R110): Control type 1, no objects, the message ID of the frame it answers
(PRESUMED, log 32), the power role, revision and data role of Switches1. -/
def goodCrcHeader (p : Phy) (f : RxFrame) : List Byte :=
  let sw := regRead p.regs 0x03
  [0#4 ++ f.byte0.extractLsb' 1 3 ++ sw.extractLsb' 7 1, sw.extractLsb' 5 2 ++ sw.extractLsb' 4 1 ++ 1#5]

/-- With Switches1 AUTO_CRC the PHY answers a received frame with GoodCRC by itself and latches I_GCRCSENT (R37, R51, R67,
R256). -/
def answerGoodCrc (f : RxFrame) (p : Phy) : Phy :=
  let sw := regRead p.regs 0x03
  if sw.getLsbD 2 then
    { p with
      intB := p.intB ||| 0x01
      wire := p.wire ++ [.goodCrc ⟨sw.getLsbD 0, sw.getLsbD 1, f.sop, goodCrcHeader p f⟩] }
  else p

/-- A frame with a valid CRC reaches the PHY (R67): if the PHY is enabled for its kind, its bytes go to the RX FIFO and it is
answered; otherwise nothing happens. The spec leaves open, and the model chooses (DESIGN CHOICE, unsafe): the receiver works
whatever PWR of the Power register is (R45, log 34); BIST_TMODE and the other R/W bits the spec only names change nothing (R43,
log 35); Status1A RXSOP, Status0 and the Interrupt bits a reception may set are left to the schedule (log 38). -/
def phyReceive (f : RxFrame) (s : State) : State :=
  if receives s.phy f.sop then
    rxArrive (rxFrameBytes f) { s with phy := answerGoodCrc f s.phy }
  else s

/-! ## The environment -/

/-- One asynchronous change of the PHY (R80). InterruptB's bits 7:1 read 0 (R51). A scheduled bit latches whatever its mask
is (R356: DESIGN CHOICE, log 30). No R/W register changes (R82). -/
def phyAct (a : PhyAct) (s : State) : State :=
  match a with
  | .transmit e => { s with phy := phyTransmit e s.phy }
  | .bytes bs => rxArrive bs s
  | .receive f => phyReceive f s
  | .latch x y z =>
    { s with phy := { s.phy with
        intA := s.phy.intA ||| x, intB := s.phy.intB ||| (y &&& 0x01), intI := s.phy.intI ||| z } }
  | .cc1 v => { s with phy := { s.phy with cc1 := v } }
  | .cc2 v => { s with phy := { s.phy with cc2 := v } }
  | .status0 v => { s with phy := { s.phy with status0 := v } }
  | .status1 v => { s with phy := { s.phy with status1 := v } }
  | .status1a v => { s with phy := { s.phy with status1a := v } }

/-- Several changes, in order. -/
def phyActs : List PhyAct → State → State
  | [], s => s
  | a :: rest, s => phyActs rest (phyAct a s)

/-- The state after the schedule's next entry; past the end of the schedule nothing changes (log 5). -/
def envTick (s : State) : State :=
  match s.env with
  | [] => s
  | e :: rest => { phyActs e.acts s with env := rest }

/-- The fate of the next transaction (I3); past the end of the schedule it completes (log 5). -/
def busFate (s : State) : BusFate :=
  match s.env with
  | [] => .completes
  | e :: _ => e.bus

/-! ## Transactions -/

/-- Status0 as read: the settled level in bits 1:0, else a free value (R53, R400, I1). -/
def readStatus0 (s : State) : Byte × State :=
  match settledLevel s.phy with
  | some c => (status0Byte s.phy c, s)
  | none => (status0Byte s.phy (Config.unsettledLevel s.draws), { s with draws := s.draws + 1 })

/-- `n` bytes from the RX FIFO, padded with `FIFO_UNDERFLOW_BYTE` (R64). -/
def rxRead (cfg : Cfg) (p : Phy) (n : Nat) : List Byte :=
  p.rx.take n ++ List.replicate (n - p.rx.length) cfg.fifoUnderflow

/-- How the PHY answers a transaction. -/
inductive Answer (α : Type) where
  | done (a : α) (s : State)
  | busError
  | fault (f : Fault)
  | refused (r : Refusal)
deriving DecidableEq, Repr

/-- A read transaction of `n` bytes at `addr` (R60 to R64). -/
def phyRead (addr : Byte) (n : Nat) (s : State) : Answer (List Byte) :=
  if addr = 0x43 then .done (rxRead s.cfg s.phy n) { s with phy := { s.phy with rx := s.phy.rx.drop n } }
  else if n ≠ 1 then .refused (.multiByteTransaction addr)
  else
    match regInfo addr.toNat with
    | none => .fault (.unmappedRegister addr)
    | some info =>
      match info.access with
      | .readWrite => .done [regRead s.phy.regs addr.toNat] s
      | .readOnly =>
        if addr = 0x01 then .done [Config.deviceId] s
        else if addr = 0x3D then .done [s.phy.status1a] s
        else if addr = 0x40 then .done [(readStatus0 s).1] (readStatus0 s).2
        else .done [status1Byte s.cfg s.phy] s
      | .readClear =>
        if addr = 0x3E then .done [s.phy.intA] { s with phy := { s.phy with intA := 0 } }
        else if addr = 0x3F then .done [s.phy.intB] { s with phy := { s.phy with intB := 0 } }
        else .done [s.phy.intI] { s with phy := { s.phy with intI := 0 } }
      | .writeAct => .done [0x00] s
      | .fifo => .done [] s

/-- PHY software reset, SW_RES (R69): registers to their reset values, FIFOs empty, latches clear. Live status other than
Status1's bits (R386: `0x28`) is left to the environment. -/
def phyReset (cfg : Cfg) (p : Phy) : Phy :=
  { p with regs := [], status1 := 0, intA := 0, intB := 0, intI := 0, rx := [], tx := [], txGo := false,
           settle := cfg.ccSettle }

/-- What writing the Reset register does (R46, R69): SW_RES resets the PHY; PD_RESET restarts its protocol logic, of which
the model holds the started transmission only (R55 (3): the rest is environment draws), and leaves the registers. -/
def resetAction (cfg : Cfg) (v : Byte) (p : Phy) : Phy :=
  if v.getLsbD 0 then phyReset cfg p else if v.getLsbD 1 then { p with txGo := false } else p

/-- What writing the `W/C` bits of an R/W register does besides storing its other bits (R63, R68): TX_FLUSH, TX_START,
RX_FLUSH, SEND_HARD_RESET; and a write of the measure mux unsettles the comparator (R55, R400). The spec does not order
TX_FLUSH and TX_START in one write: the FIFO is emptied and the start is left pending. DESIGN CHOICE, log 39, unsafe for a
claim about such a write, which no instruction makes. -/
def writeAction (cfg : Cfg) (addr : Byte) (v : Byte) (p : Phy) : Phy :=
  if addr = 0x02 then { p with settle := cfg.ccSettle }
  else if addr = 0x06 then
    { p with tx := if v.getLsbD 6 then [] else p.tx, txGo := v.getLsbD 0 || (p.txGo && !v.getLsbD 6) }
  else if addr = 0x07 then { p with rx := if v.getLsbD 2 then [] else p.rx }
  else if addr = 0x09 then { p with wire := if v.getLsbD 6 then p.wire ++ [.hardReset] else p.wire }
  else p

/-- The bits of a written value an R/W register keeps: not the `W/C` bits, not the reserved bits that read 0 (R34, R37). -/
def storedBits (info : RegInfo) (v : Byte) : Byte := v &&& ~~~(info.act ||| info.zero)

/-- A write transaction of the bytes `v` at `addr` (R60 to R65, R68, R69). A FIFO write that would overflow is a BusError
without effect (I14, log 10). -/
def phyWrite (addr : Byte) (v : List Byte) (s : State) : Answer Unit :=
  if addr = 0x43 then
    if s.cfg.txFifoBytes.val < s.phy.tx.length + v.length then .busError
    else .done () { s with phy := { s.phy with tx := s.phy.tx ++ v } }
  else
    match v with
    | [b] =>
      match regInfo addr.toNat with
      | none => .fault (.unmappedRegister addr)
      | some info =>
        match info.access with
        | .readWrite =>
          let stored := { s.phy with regs := regWrite s.phy.regs addr.toNat (storedBits info b) }
          .done () { s with phy := writeAction s.cfg addr b stored }
        | .writeAct => .done () { s with phy := resetAction s.cfg b s.phy }
        | .readOnly => .fault (.readOnlyRegister addr)
        | .readClear => .fault (.readOnlyRegister addr)
        | .fifo => .done () s
    | _ => .refused (.multiByteTransaction addr)

end Sys2Proof.Machine
end

