-- ==== Sys2Proof/Machine/Ops.lean ====
section
/-! DEFINITION. The named operations every meaning is built from: operations as sequences of primitives (R12, R20), how they
are sequenced and how an error ends them (R353), surfacing (R350: taking an exception), and the returns from one: block reset
(R351, R389) and cancellation recovery (R352). -/

namespace Sys2Proof.Machine

/-! ## Operations -/

/-- What ends a run of an operation early: an error that surfaces, or a cancellation (R340); or the operation has not ended
where its written part does (an unbounded scan is written down for so many reads, R201, log 18). -/
inductive Exit where
  | error (e : Err)
  | cancel
  | unfinished
deriving DecidableEq, Repr

/-- What stops the machine. -/
inductive Halt where
  | fault (f : Fault)
  | refused (r : Refusal)
deriving DecidableEq, Repr

/-- How an operation ends: with a result, by an exit with everything before it done (R353), or stopping the machine. -/
inductive Res (α : Type) where
  | ok (a : α) (s : State)
  | exit (x : Exit) (s : State)
  | halt (h : Halt)
deriving DecidableEq, Repr

/-- An operation of the block: its sequence of primitives, which its rule fixes (R20). Between two primitives it reads the
configuration, reads a register or samples a signal, and writes registers of the block. -/
inductive Op (α : Type) where
  | done (a : α)
  | exit (x : Exit)
  | halt (h : Halt)
  | conf (k : Cfg → Op α)
  | see (f : State → Val × State) (k : Val → Op α)
  | change (f : State → State) (k : Op α)
  | prim (f : State → Res Val) (k : Val → Op α)

/-- Run an operation to its end. -/
def evalOp {α : Type} : Op α → State → Res α
  | .done a, s => .ok a s
  | .exit x, s => .exit x s
  | .halt h, _ => .halt h
  | .conf k, s => evalOp (k s.cfg) s
  | .see f k, s => evalOp (k (f s).1) (f s).2
  | .change f k, s => evalOp k (f s)
  | .prim f k, s =>
    match f s with
    | .ok v t => evalOp (k v) t
    | .exit x t => .exit x t
    | .halt h => .halt h

/-- The position a whole run of an operation reaches (R20): what it did and read, in order. -/
def trail {α : Type} : Op α → State → List Note
  | .done _, _ => []
  | .exit _, _ => []
  | .halt _, _ => []
  | .conf k, s => trail (k s.cfg) s
  | .see f k, s => .saw (f s).1 :: trail (k (f s).1) (f s).2
  | .change f k, s => trail k (f s)
  | .prim f k, s =>
    match f s with
    | .ok v t => .did v :: trail (k v) t
    | .exit _ _ => []
    | .halt _ => []

/-! ## One primitive at a time (R20) -/

/-- What running a part of an operation comes to: its end, or the position before a primitive and the state there. -/
inductive Part (α : Type) where
  | ended (r : Res α)
  | before (notes : List Note) (s : State)

/-- Run an operation for at most `n` primitives, up to its end or up to the primitive after them; `notes` is the position it
starts at. -/
def runPrims {α : Type} : Op α → Nat → List Note → State → Part α
  | .done a, _, _, s => .ended (.ok a s)
  | .exit x, _, _, s => .ended (.exit x s)
  | .halt h, _, _, _ => .ended (.halt h)
  | .conf k, n, notes, s => runPrims (k s.cfg) n notes s
  | .see f k, n, notes, s => runPrims (k (f s).1) n (notes ++ [.saw (f s).1]) (f s).2
  | .change f k, n, notes, s => runPrims k n notes (f s)
  | .prim _ _, 0, notes, s => .before notes s
  | .prim f k, n + 1, notes, s =>
    match f s with
    | .ok v t => runPrims (k v) n (notes ++ [.did v]) t
    | .exit x t => .ended (.exit x t)
    | .halt h => .ended (.halt h)

/-- The value of an entry of a position. -/
def noteVal : Note → Val
  | .did v => v
  | .saw v => v

/-- What is left of an operation at a position: its primitives, readings and register writes up to there are done. -/
def opAfter {α : Type} (cfg : Cfg) : Op α → List Note → Op α
  | .done a, _ => .done a
  | .exit x, _ => .exit x
  | .halt h, _ => .halt h
  | .conf k, notes => opAfter cfg (k cfg) notes
  | .change _ k, notes => opAfter cfg k notes
  | .see f k, [] => .see f k
  | .see _ k, v :: notes => opAfter cfg (k (noteVal v)) notes
  | .prim f k, [] => .prim f k
  | .prim _ k, v :: notes => opAfter cfg (k (noteVal v)) notes

/-- The index of the next primitive (R20): the primitives done. -/
def position (notes : List Note) : Nat :=
  (notes.filter fun n => match n with
    | .did _ => true
    | .saw _ => false).length

/-! ## Sequencing -/

/-- Return a result. -/
def opPure {α : Type} (a : α) : Op α := .done a

/-- Run `m`, then `f` of its result; an exit of `m` ends both (R353, R354). -/
def opBind {α β : Type} : Op α → (α → Op β) → Op β
  | .done a, f => f a
  | .exit x, _ => .exit x
  | .halt h, _ => .halt h
  | .conf k, f => .conf fun c => opBind (k c) f
  | .see g k, f => .see g fun v => opBind (k v) f
  | .change g k, f => .change g (opBind k f)
  | .prim g k, f => .prim g fun v => opBind (k v) f

/-- Run `m`, then `k`. -/
def opSeq {α β : Type} (m : Op α) (k : Op β) : Op β := opBind m fun _ => k

/-- `raise E(info)` (R12). -/
def opRaise {α : Type} (e : Err) : Op α := .exit (.error e)

/-- A precondition check, before any effect (R342): raise `e` unless it holds. -/
def opRequire {α : Type} (ok : Bool) (e : Err) (k : Op α) : Op α := if ok then k else opRaise e

/-- The result of a pure codec function, or its error raised by operation `op`. -/
def opCodec {α : Type} (op : Byte) : Except CodecError α → Op α
  | .ok a => opPure a
  | .error e => opRaise (codecErr op e)

/-- Read the configuration (R29). -/
def opCfg : Op Cfg := .conf opPure

/-- Read something between two primitives, changing `f`'s part of the state; `put` and `get` are its form as a `Val`. -/
def opSee {α : Type} (put : α → Val) (get : Val → α) (f : State → α × State) : Op α :=
  .see (fun s => (put (f s).1, (f s).2)) fun v => opPure (get v)

/-- One primitive; `put` and `get` are its answer's form as a `Val`. -/
def opPrim {α : Type} (put : α → Val) (get : Val → α) (f : State → Res α) : Op α :=
  .prim (fun s => match f s with
    | .ok a t => .ok (put a) t
    | .exit x t => .exit x t
    | .halt h => .halt h) fun v => opPure (get v)

/-- Write registers of the block. -/
def opModify (f : State → State) : Op Unit := .change f (opPure ())

/-- Run an operation for each element, in order. -/
def opForEach {α : Type} (f : α → Op Unit) : List α → Op Unit
  | [] => opPure ()
  | a :: rest => opSeq (f a) (opForEach f rest)

/-! ## Answers as values -/

/-- The bytes of a value. -/
def Val.toBytes : Val → List Byte
  | .bytes bs => bs
  | _ => []

/-- The flag of a value. -/
def Val.toFlag : Val → Bool
  | .flag b => b
  | _ => false

/-- The host's choice of a value. -/
def Val.toChoice : Val → Option (Nat × Nat)
  | .choice c => c
  | _ => none

/-- The message ID of a value. -/
def Val.toId : Val → BitVec 3
  | .id i => i
  | _ => 0

/-- The log of a value. -/
def Val.toLog : Val → List SentRecord
  | .log rs => rs
  | _ => []

/-- The only answer of a primitive that answers nothing. -/
def Val.toUnit (_ : Val) : Unit := ()

/-- Nothing, as a value. -/
def unitVal (_ : Unit) : Val := .unit

/-! ## Updates of the state -/

/-- Record a primitive in the trace (R364). -/
def logPrim (p : Prim) (s : State) : State := { s with trace := s.trace ++ [p] }

/-- Append a diagnostic event (R366). -/
def emitEvent (e : Event) (s : State) : State :=
  logPrim (.emit e) { s with diag := s.diag ++ [e] }

/-- Set the control state, with the position at the start of its operation (R20). -/
def setCtl (c : Ctl) (s : State) : State := { s with ctl := c, notes := [] }

/-- Change the session registers. -/
def updSes (f : Session → Session) (s : State) : State := { s with ses := f s.ses }

/-- Set the transient codec state (R31). -/
def setScan (c : Option Scan) (s : State) : State := { s with scan := c }

/-- Set the result of the instruction (log 16). -/
def setResult (v : Value) (s : State) : State := { s with result := v }

/-- Time passes: at least `d` microseconds nearer to a settled comparator (R14, R400). -/
def passTime (d : Nat) (s : State) : State := { s with phy := { s.phy with settle := s.phy.settle - d } }

/-! ## Primitives (R12) -/

/-- A PHY's answer as a transaction's outcome: completed, or a BusError (R341). -/
def answered {α : Type} (e : Err) (failed done : Prim) (s : State) : Answer α → Res α
  | .done a s' => .ok a (logPrim done s')
  | .busError => .exit (.error e) (logPrim failed s)
  | .fault f => .halt (.fault f)
  | .refused r => .halt (.refused r)

/-- A transaction that fails with its own effect done (R63, I3). -/
def failedDone {α : Type} (e : Err) (failed : Prim) (s : State) : Answer α → Res α
  | .done _ s' => .exit (.error e) (logPrim failed s')
  | .busError => .exit (.error e) (logPrim failed s)
  | .fault f => .halt (.fault f)
  | .refused r => .halt (.refused r)

/-- The bytes a read answers, for the trace. -/
def answeredBytes : Answer (List Byte) → List Byte
  | .done bs _ => bs
  | _ => []

/-- The effect of `MemRead(addr, n)` by operation `op` (R60): the environment's changes first (R80), then the transaction. -/
def busRead (op : Byte) (addr : Byte) (n : Nat) (s : State) : Res (List Byte) :=
  let t := envTick s
  let e := Err.bus addr .read n op
  match busFate s with
  | .completes => answered e (.busFailed addr .read n) (.rd addr (answeredBytes (phyRead addr n t))) t (phyRead addr n t)
  | .failsDone => failedDone e (.busFailed addr .read n) t (phyRead addr n t)
  | .failsUndone => .exit (.error e) (logPrim (.busFailed addr .read n) t)

/-- The effect of `MemWrite(addr, v)` by operation `op` (R60). -/
def busWrite (op : Byte) (addr : Byte) (v : List Byte) (s : State) : Res Unit :=
  let t := envTick s
  let e := Err.bus addr .write v.length op
  match busFate s with
  | .completes => answered e (.busFailed addr .write v.length) (.wr addr v) t (phyWrite addr v t)
  | .failsDone => failedDone e (.busFailed addr .write v.length) t (phyWrite addr v t)
  | .failsUndone => .exit (.error e) (logPrim (.busFailed addr .write v.length) t)

/-- `MemRead(addr, n)` (R12). -/
def memRead (op : Byte) (addr : Byte) (n : Nat) : Op (List Byte) := opPrim .bytes Val.toBytes (busRead op addr n)

/-- `MemWrite(addr, v)` (R12). -/
def memWrite (op : Byte) (addr : Byte) (v : List Byte) : Op Unit := opPrim unitVal Val.toUnit (busWrite op addr v)

/-- A one-byte read. -/
def readReg (op : Byte) (addr : Byte) : Op Byte := opBind (memRead op addr 1) fun bs => opPure (bs.headD 0)

/-- A one-byte write. -/
def writeReg (op : Byte) (addr : Byte) (v : Byte) : Op Unit := memWrite op addr [v]

/-- `RMW(addr, clear, set)`: two transactions (R12, R82). -/
def rmw (op : Byte) (addr : Byte) (clear set : Byte) : Op Unit :=
  opBind (readReg op addr) fun v => writeReg op addr ((v &&& ~~~clear) ||| set)

/-- `IntPin()` (R12, R85): the environment's changes up to the sample, then the level. -/
def samplePin : Op Bool := opSee .flag Val.toFlag fun s => (intPin (envTick s).phy, envTick s)

/-- `Stop()` (R12): the next queued sample, not asserted past the end of the queue (log 25). -/
def sampleStop : Op Bool := opSee .flag Val.toFlag fun s => (s.stops.headD false, { s with stops := s.stops.tail })

/-- A primitive that always completes and answers nothing. -/
def opAct (f : State → State) : Op Unit := opPrim unitVal Val.toUnit fun s => .ok () (f s)

/-- `wait(d)` (R12, R14). -/
def waitFor (d : Nat) : Op Unit := opAct fun s => logPrim (.wait d) (passTime d s)

/-- `emit(ev)` (R12). -/
def emit (e : Event) : Op Unit := opAct (emitEvent e)

/-- A host exchange without an answer (R13). -/
def tell (a : Ask) : Op Unit := opAct (logPrim (.ask a))

/-- The effect of `ask(selectPdo, pdos)` (R13): the next queued answer, else a free value (I21, log 25). -/
def hostSelects (pdos : List Pdo) (s : State) : Option (Nat × Nat) × State :=
  match s.selects with
  | a :: rest => (a, logPrim (.ask (.selectPdo pdos)) { s with selects := rest })
  | [] => (Config.selectPdoAnswer s.draws pdos, logPrim (.ask (.selectPdo pdos)) { s with draws := s.draws + 1 })

/-- The effect of `ask(validateProfile, profile, m)` (R13): the next queued answer, else a free value (I21, log 25). -/
def hostValidates (profile : FixedPdo) (m : Message) (s : State) : Bool × State :=
  match s.validates with
  | a :: rest => (a, logPrim (.ask (.validateProfile profile m)) { s with validates := rest })
  | [] => (Config.validateAnswer s.draws profile m,
      logPrim (.ask (.validateProfile profile m)) { s with draws := s.draws + 1 })

/-- `ask(selectPdo, pdos)` (R13). -/
def askSelect (pdos : List Pdo) : Op (Option (Nat × Nat)) :=
  opPrim .choice Val.toChoice fun s => .ok (hostSelects pdos s).1 (hostSelects pdos s).2

/-- `ask(validateProfile, profile, m)` (R13). -/
def askValidate (profile : FixedPdo) (m : Message) : Op Bool :=
  opPrim .flag Val.toFlag fun s => .ok (hostValidates profile m s).1 (hostValidates profile m s).2

/-! ## Taking an exception, and the returns from one -/

/-- Surfacing (R350): `lastError` takes the kind and information, the `Fault` event is emitted, `ctl` becomes `Fault`;
nothing else the spec names changes. The aborted parse's transient state is gone (R31), and there is no result. -/
def surface (e : Err) (s : State) : State :=
  setCtl (.fault e) (emitEvent (.fault e) { s with lastError := some e, scan := none, result := .none })

/-- A cancellation caught at the top of the session loop (R348, R391): `ctl` becomes `Pause(0)`. -/
def catchCancel (s : State) : State := setCtl (.pause 0) (setScan none (setResult .none s))

/-- Block reset, the only return from `Fault` (R351, R389): no error, an empty diagnostic stream, the configuration check
(R381), then setup. -/
def opBlockReset : Op Unit :=
  opSeq (opModify fun s => { s with lastError := none, diag := [] }) <|
  opBind opCfg fun cfg =>
  opRequire (checkConfig cfg) (.caller .badConfig 0x60) <|
  opModify (setCtl (.setup cfg.role 0))

/-- Cancellation recovery (R352): report, pause, start setup. -/
def opCancelRecover : Op Unit :=
  opSeq (emit .cancelled) <|
  opSeq (opModify (setCtl (.pause 0))) <|
  opBind opCfg fun cfg =>
  opSeq (waitFor cfg.cancelPause) <|
  opModify (setCtl (.setup cfg.role 0))

/-! ## The outcome of an instruction -/

/-- The state an exit leads to: an error surfaces, a cancellation is caught; an operation that has not ended leaves what it
did. -/
def takeExit : Exit → State → State
  | .error e, s => surface e s
  | .cancel, s => catchCancel s
  | .unfinished, s => s

/-- An operation's end as the instruction's outcome: its result is recorded, an exit is taken, a halt stops the machine. -/
def conclude {α : Type} (value : α → Value) : Res α → Host.Outcome State Fault Refusal
  | .ok a s => .next (setResult (value a) s)
  | .exit x s => .next (takeExit x s)
  | .halt (.fault f) => .fault f
  | .halt (.refused r) => .refused r

/-- Run an operation as an instruction. -/
def runOp {α : Type} (value : α → Value) (m : Op α) (s : State) : Host.Outcome State Fault Refusal :=
  conclude value (evalOp m s)

/-- Run an operation that returns nothing. -/
def runUnit (m : Op Unit) (s : State) : Host.Outcome State Fault Refusal := runOp (fun _ => .unit) m s

/-- The state in which an operation is under way (R20): which one, its position, no result yet. -/
def leaveUnderWay (r : Option Running) (notes : List Note) (s : State) : State :=
  { s with running := r, notes := notes, result := .none }

/-- Run an operation that scans as an instruction: one that has not ended is left under way at its position, for the next
steps to go on with (R20, R201, log 18); `r` says which it is, `none` that the supervisor's own operation is the same. -/
def runScan {α : Type} (r : Option Running) (value : α → Value) (m : Op α) (s : State) :
    Host.Outcome State Fault Refusal :=
  match evalOp m s with
  | .exit .unfinished t => .next (leaveUnderWay r (trail m s) t)
  | res => conclude value res

end Sys2Proof.Machine
end

