-- ==== Sys2Proof/Machine/Transceiver.lean ====
section
/-! DEFINITION. Transceiver Driver operations (`40_transceiver.md`, codes 0x01 to 0x16): each as an operation `op…`
over the primitives, and as the meaning `exec…` of its instruction. The first argument of a primitive is the code of the
operation that makes it (R340). -/

namespace Sys2Proof.Machine

/-! ## Reset and power (R150 to R153) -/

/-- `RESET` (R150): SW_RES. -/
def opReset : Op Unit := writeReg 0x01 0x0C 0x01

/-- `RESET_PD` (R151): PD_RESET. -/
def opResetPd : Op Unit := writeReg 0x02 0x0C 0x02

/-- `POWER_ON` (R152): PWR[3:0] all on. -/
def opPowerOn : Op Unit := writeReg 0x03 0x0B 0x0F

/-- `UNMASK_INT` (R153): the three masks, then Control0.INT_MASK. -/
def opUnmaskInt : Op Unit :=
  opSeq (writeReg 0x04 0x0A 0x00) <|
  opSeq (writeReg 0x04 0x0E 0x00) <|
  opSeq (writeReg 0x04 0x0F 0x00) <|
  rmw 0x04 0x06 0x20 0x00

/-! ## CC measurement and detection (R154 to R157) -/

/-- The check every operation taking a pin makes first (R158). -/
def isPin (pin : Nat) : Bool := decide (pin = 1 ∨ pin = 2)

/-- `MEASURE_CC pin` (R154). -/
def opMeasureCc (pin : Nat) : Op Unit :=
  opRequire (isPin pin) (.caller (.badPin pin) 0x05) <|
  rmw 0x05 0x02 0x0C (if pin = 1 then 0x04 else 0x08)

/-- `CURRENT_LEVEL` (R155): Status0 BC_LVL. -/
def opCurrentLevel : Op (BitVec 2) := opBind (readReg 0x06 0x40) fun v => opPure (v.extractLsb' 0 2)

/-- Select a pin, let it settle, read its code (R156, R157, R400). -/
def opMeasureSettled (pin : Nat) : Op (BitVec 2) :=
  opSeq (opMeasureCc pin) <|
  opBind (opCfg) fun cfg =>
  opSeq (waitFor cfg.ccSettle) <|
  opCurrentLevel

/-- Both codes, CC1 first, with the `debug` event (R156, R157, R169). -/
def opBothLevels (debug : Bool) : Op (BitVec 2 × BitVec 2) :=
  opBind (opMeasureSettled 1) fun c1 =>
  opBind (opMeasureSettled 2) fun c2 =>
  opSeq (if debug then emit (.ccMeasured c1 c2) else opPure ()) <|
  opPure (c1, c2)

/-- The pin with the strictly higher code, None on a tie (R156). -/
def sinkPin (c1 c2 : BitVec 2) : CCPin :=
  if c1.toNat > c2.toNat then .cc1 else if c2.toNat > c1.toNat then .cc2 else .none

/-- The pin whose code equals `hostCode`, CC1 tested first (R157, D7). -/
def sourcePin (hostCode : Nat) (c1 c2 : BitVec 2) : CCPin :=
  if c1.toNat = hostCode then .cc1 else if c2.toNat = hostCode then .cc2 else .none

/-- `DETECT_SINK debug` (R156). -/
def opDetectSink (debug : Bool) : Op CCPin := opBind (opBothLevels debug) fun c => opPure (sinkPin c.1 c.2)

/-- `DETECT_SOURCE hostCode, debug` (R157). -/
def opDetectSource (hostCode : Nat) (debug : Bool) : Op CCPin :=
  opRequire (decide (hostCode ≤ 3)) (.caller (.badCode hostCode) 0x08) <|
  opBind (opBothLevels debug) fun c => opPure (sourcePin hostCode c.1 c.2)

/-! ## Setup helpers (R159 to R162) -/

/-- `SET_TERMINATION role` (R159): pull-downs for a sink, pull-ups for a source. -/
def opSetTermination (role : Role) : Op Unit :=
  writeReg 0x09 0x02 (match role with | .sink => 0x03 | .source => 0xC0)

/-- Switches1 for a role: POWERROLE, SPECREV, DATAROLE, AUTO_CRC (R160). -/
def roleSwitches (cfg : Cfg) (role : Role) : Byte :=
  BitVec.ofNat 8 ((roleBits cfg role).1 * 128 + cfg.rev * 32 + (roleBits cfg role).2 * 16 + 4)

/-- `SET_ROLE_BITS role` (R160). -/
def opSetRoleBits (role : Role) : Op Unit :=
  opBind (opCfg) fun cfg => writeReg 0x0A 0x03 (roleSwitches cfg role)

/-- `SET_HOST_CURRENT code` (R161): Control0 HOST_CUR. -/
def opSetHostCurrent (code : Nat) : Op Unit :=
  opRequire (decide (code ≤ 3)) (.caller (.badCode code) 0x0B) <|
  rmw 0x0B 0x06 0x0C (BitVec.ofNat 8 (code * 4))

/-- `CONFIG_PHY` (R162): Control3, and ENSOP1 when enabled. `PHY_CONTROL3` is written as it is; its
bit 6 is 0, so SEND_HARD_RESET is never set (R43, D26, log 28). Bit 5 (BIST_TMODE) is stored and changes nothing else: DESIGN
CHOICE, log 35. -/
def opConfigPhy : Op Unit :=
  opBind (opCfg) fun cfg =>
  opSeq (writeReg 0x0C 0x09 (BitVec.ofNat 8 cfg.phyControl3.val)) <|
  if cfg.enableSopPrime then rmw 0x0C 0x07 0x00 0x01 else opPure ()

/-! ## FIFO flushes (R166, R167) -/

/-- `FLUSH_RX` (R166): Control1 RX_FLUSH. -/
def opFlushRx : Op Unit := rmw 0x0F 0x07 0x00 0x04

/-- `FLUSH_TX` (R167): Control0 TX_FLUSH. -/
def opFlushTx : Op Unit := rmw 0x10 0x06 0x00 0x40

/-! ## Settling onto a pin (R163, R164) -/

/-- The bits `ENABLE_TX_SWITCH` sets: TXCC of the pin, SPECREV = REV (R164). -/
def txSwitchBits (cfg : Cfg) (pin : Nat) : Byte := BitVec.ofNat 8 ((if pin = 1 then 1 else 2) + cfg.rev * 32)

/-- `ENABLE_TX_SWITCH pin` (R164). -/
def opEnableTxSwitch (pin : Nat) : Op Unit :=
  opRequire (isPin pin) (.caller (.badPin pin) 0x0E) <|
  opBind (opCfg) fun cfg => rmw 0x0E 0x03 0x63 (txSwitchBits cfg pin)

/-- The detection a strategy names (R163). -/
def opDetect : Detect → Op CCPin
  | .sink debug => opDetectSink debug
  | .source hostCode debug => opDetectSource hostCode.toNat debug

/-- The pin `FIND_CC` settles on: the detected one, or `DEFAULT_PIN` for None (R163, R158). -/
def settlePin (cfg : Cfg) (pin : CCPin) : Nat := pinNumber (if pin = .none then cfg.defaultPin else pin)

/-- Settle onto a detected pin and store it, last (R163). -/
def opSettleOn (pin : CCPin) : Op CCPin :=
  opBind (opCfg) fun cfg =>
  opSeq opFlushRx <|
  opSeq (opEnableTxSwitch (settlePin cfg pin)) <|
  opSeq (opMeasureCc (settlePin cfg pin)) <|
  opSeq opFlushTx <|
  opSeq opFlushRx <|
  opSeq opResetPd <|
  opSeq (opModify (updSes fun ses => { ses with ccPin := pin })) <|
  opPure pin

/-- `FIND_CC detect` (R163). -/
def opFindCc (detect : Detect) : Op CCPin := opBind (opDetect detect) opSettleOn

/-- `SET_WAKE en` (R170): Control2 WAKE_EN. -/
def opSetWake (en : Bool) : Op Unit := rmw 0x11 0x08 0x08 (if en then 0x08 else 0x00)

/-! ## Interrupts and status (R171 to R174) -/

/-- `READ_INT` (R172): three reads, A, B, then I. -/
def opReadInt : Op (Byte × Byte × Byte) :=
  opBind (readReg 0x13 0x3E) fun a =>
  opBind (readReg 0x13 0x3F) fun b =>
  opBind (readReg 0x13 0x42) fun i =>
  opPure (a, b, i)

/-- `READ_RX_STATE` (R173). -/
def opReadRxState : Op (Bool × Bool) := opBind (readReg 0x14 0x41) fun v => opPure (rxFlags v)

/-- `READ_FIFO n` (R174): no transaction for 0. -/
def opReadFifo (n : Nat) : Op (List Byte) := if n = 0 then opPure [] else memRead 0x15 0x43 n

/-! ## Transmit (R176 to R178) -/

/-- A legal payload length, `2 + 4k` with `k ≤ 7` (R178). -/
def legalLength (n : Nat) : Bool := decide (2 ≤ n ∧ n ≤ 30 ∧ (n - 2) % 4 = 0)

/-- The SOP tokens of a payload of `n` bytes (R101, R102). -/
def sopTokens (n : Nat) : List Byte := [0x12, 0x12, 0x12, 0x13, 0x80 ||| BitVec.ofNat 8 n]

/-- The EOP tokens (R104). -/
def eopTokens : List Byte := [0xFF, 0x14, 0xFE, 0xA1]

/-- `SEND_PACKET p` (R176): three FIFO writes, SOP, payload, EOP (R404); no CRC, no completion wait (R177). -/
def opSendPacket (p : List Byte) : Op Unit :=
  opRequire (legalLength p.length) (.caller (.badLength p.length) 0x16) <|
  opSeq (memWrite 0x16 0x43 (sopTokens p.length)) <|
  opSeq (memWrite 0x16 0x43 p) <|
  memWrite 0x16 0x43 eopTokens

/-! ## The instructions -/

/-- `RESET`. -/
def execReset (s : State) : Host.Outcome State Fault Refusal := runUnit opReset s

/-- `RESET_PD`. -/
def execResetPd (s : State) : Host.Outcome State Fault Refusal := runUnit opResetPd s

/-- `POWER_ON`. -/
def execPowerOn (s : State) : Host.Outcome State Fault Refusal := runUnit opPowerOn s

/-- `UNMASK_INT`. -/
def execUnmaskInt (s : State) : Host.Outcome State Fault Refusal := runUnit opUnmaskInt s

/-- `MEASURE_CC`. -/
def execMeasureCc (pin : Byte) (s : State) : Host.Outcome State Fault Refusal := runUnit (opMeasureCc pin.toNat) s

/-- `CURRENT_LEVEL`. -/
def execCurrentLevel (s : State) : Host.Outcome State Fault Refusal := runOp .level opCurrentLevel s

/-- `DETECT_SINK`. -/
def execDetectSink (debug : Bool) (s : State) : Host.Outcome State Fault Refusal := runOp .pin (opDetectSink debug) s

/-- `DETECT_SOURCE`. -/
def execDetectSource (hostCode : Byte) (debug : Bool) (s : State) : Host.Outcome State Fault Refusal :=
  runOp .pin (opDetectSource hostCode.toNat debug) s

/-- `SET_TERMINATION`. -/
def execSetTermination (role : Role) (s : State) : Host.Outcome State Fault Refusal := runUnit (opSetTermination role) s

/-- `SET_ROLE_BITS`. -/
def execSetRoleBits (role : Role) (s : State) : Host.Outcome State Fault Refusal := runUnit (opSetRoleBits role) s

/-- `SET_HOST_CURRENT`. -/
def execSetHostCurrent (code : Byte) (s : State) : Host.Outcome State Fault Refusal :=
  runUnit (opSetHostCurrent code.toNat) s

/-- `CONFIG_PHY`. -/
def execConfigPhy (s : State) : Host.Outcome State Fault Refusal := runUnit opConfigPhy s

/-- `FIND_CC`. -/
def execFindCc (detect : Detect) (s : State) : Host.Outcome State Fault Refusal := runOp .pin (opFindCc detect) s

/-- `ENABLE_TX_SWITCH`. -/
def execEnableTxSwitch (pin : Byte) (s : State) : Host.Outcome State Fault Refusal :=
  runUnit (opEnableTxSwitch pin.toNat) s

/-- `FLUSH_RX`. -/
def execFlushRx (s : State) : Host.Outcome State Fault Refusal := runUnit opFlushRx s

/-- `FLUSH_TX`. -/
def execFlushTx (s : State) : Host.Outcome State Fault Refusal := runUnit opFlushTx s

/-- `SET_WAKE`. -/
def execSetWake (en : Bool) (s : State) : Host.Outcome State Fault Refusal := runUnit (opSetWake en) s

/-- `DECODE_INT`. -/
def execDecodeInt (i : Byte) (s : State) : Host.Outcome State Fault Refusal :=
  runOp .conditions (opPure (decodeInt i)) s

/-- `READ_INT`. -/
def execReadInt (s : State) : Host.Outcome State Fault Refusal := runOp (fun r => .intBytes r.1 r.2.1 r.2.2) opReadInt s

/-- `READ_RX_STATE`. -/
def execReadRxState (s : State) : Host.Outcome State Fault Refusal := runOp (fun r => .rxState r.1 r.2) opReadRxState s

/-- `READ_FIFO`. -/
def execReadFifo (n : Byte) (s : State) : Host.Outcome State Fault Refusal := runOp .bytes (opReadFifo n.toNat) s

/-- `SEND_PACKET`. -/
def execSendPacket (p : List Byte) (s : State) : Host.Outcome State Fault Refusal := runUnit (opSendPacket p) s

end Sys2Proof.Machine
end

