-- ==== Sys2Proof/Machine/FrameCodec.lean ====
section
/-! DEFINITION. Frame Codec operations (`41_frame_codec.md`, codes 0x20 to 0x2C). Only `PARSE_MESSAGE` touches the bus,
through `READ_FIFO` (R200); the others are pure (R223). -/

namespace Sys2Proof.Machine

/-! ## Receiving a frame (R200 to R208) -/

/-- Bytes the codec has consumed count on, while a parse runs (R31). -/
def advanceScan (n : Nat) (s : State) : State :=
  { s with scan := s.scan.map fun c => { c with consumed := c.consumed + n } }

/-- `READ_FIFO n` of the codec, moving the scanning position (R31, R200). -/
def opCodecRead (n : Nat) : Op (List Byte) :=
  opBind (opReadFifo n) fun bs => opSeq (opModify (advanceScan n)) <| opPure bs

/-- How a marker scan can end: a frame's SOP kind, or no frame (R201, R202). -/
inductive Marker where
  | frame (sop : Sop)
  | noFrame
deriving DecidableEq, Repr

/-- The codec action on one scanned byte: a marker, no frame, or discard and go on (R106, compared whole). -/
def markerOf (b : Byte) : Option Marker :=
  if b = 0xE0 then some (.frame .primary)
  else if b = 0xC0 then some (.frame .prime)
  else if b = 0x00 then some .noFrame
  else none

/-- Scanning (R201): one `READ_FIFO 1` per byte until a marker or 0x00; any other byte is reported and discarded. R201 has no
count limit; its first `reads` reads are written down, after which it has not ended (log 18). -/
def opScan : Nat → Op Marker
  | 0 => .exit .unfinished
  | reads + 1 =>
    opBind (opCodecRead 1) fun bs =>
    let b := bs.headD 0
    match markerOf b with
    | some m => opPure m
    | none => opSeq (emit (.discardedByte b)) (opScan reads)

/-- How many bytes a change may put into the RX FIFO (R67). -/
def arrivals : PhyAct → Nat
  | .bytes bs => bs.length
  | .receive f => (rxFrameBytes f).length
  | _ => 0

/-- Enough reads for any scan that ends: each takes a byte of the RX FIFO or uses up an entry of the schedule, and the last
reads `FIFO_UNDERFLOW_BYTE` from an empty FIFO with nothing scheduled. An invoked instruction does so many in its own step
(log 18). -/
def scanReads (s : State) : Nat :=
  s.phy.rx.length + (s.env.map fun e => (e.acts.map arrivals).sum).sum + s.env.length + 1

/-- The rest of a frame once its SOP kind and header are known: data (no transaction when there is none, R204), the CRC, read
and discarded (R205), and the message (R206, R207). -/
def opParseBody (sop : Sop) (hdr : Header) : Op Message :=
  opBind (opCodecRead (4 * hdr.numDataObjects.toNat)) fun data =>
  opSeq (opModify fun s => { s with scan := s.scan.map fun c => { c with dataObjects := objectsOf data } }) <|
  opSeq (opBind (opCodecRead 4) fun _ => opPure ()) <|
  opSeq (opModify (setScan none)) <|
  opPure (buildMessage sop hdr (objectsOf data))

/-- The frame after its marker: two header bytes in one read (R203), then the rest. -/
def opParseFrame (sop : Sop) : Op Message :=
  opSeq (opModify fun s => { s with scan := s.scan.map fun c => { c with sop := some sop } }) <|
  opBind (opCodecRead 2) fun hb =>
  let hdr := decodeHeader sop (hb.getD 0 0) (hb.getD 1 0)
  opSeq (opModify fun s => { s with scan := s.scan.map fun c => { c with hdr := some hdr } }) <|
  opParseBody sop hdr

/-- `PARSE_MESSAGE` (R200), its scan for so many reads: a message, or `none` for NotReady (R345). -/
def opParseMessage (reads : Nat) : Op (Option Message) :=
  opSeq (opModify (setScan (some ⟨0, none, none, []⟩))) <|
  opBind (opScan reads) fun m =>
  match m with
  | .noFrame => opSeq (opModify (setScan none)) <| opPure none
  | .frame sop => opBind (opParseFrame sop) fun msg => opPure (some msg)

/-- The result of a parse: the message or NotReady. -/
def parseValue : Option Message → Value
  | some m => .message m
  | none => .notReady

/-! ## The instructions -/

/-- `PARSE_MESSAGE`. -/
def execParseMessage (s : State) : Host.Outcome State Fault Refusal :=
  runScan (some .parseMessage) parseValue (opParseMessage (scanReads s)) s

/-- `ENCODE_HEADER`. -/
def execEncodeHeader (ext n id rev pr dr t : Byte) (s : State) : Host.Outcome State Fault Refusal :=
  runOp .bytes
    (opCodec 0x21 (encodeHeader ext.toNat n.toNat id.toNat rev.toNat pr.toNat dr.toNat t.toNat)) s

/-- `ENCODE_COMMAND`. -/
def execEncodeCommand (command : MsgName) (dataObjects : List Byte) (messageId revision powerRole dataRole : Byte)
    (s : State) : Host.Outcome State Fault Refusal :=
  runOp .bytes (opCodec 0x22 (encodeCommand command dataObjects messageId.toNat revision.toNat powerRole.toNat
    dataRole.toNat)) s

/-- `PARSE_PDO`. -/
def execParsePdo (b4 : Word32) (s : State) : Host.Outcome State Fault Refusal := runOp .pdo (opPure (parsePdo b4)) s

/-- `BUILD_FIXED_PDO`. -/
def execBuildFixedPdo (v c p f : Word32) (s : State) : Host.Outcome State Fault Refusal :=
  runOp (fun w => .bytes (wordBytes w)) (opCodec 0x24 (buildFixedPdo v.toNat c.toNat p.toNat f.toNat)) s

/-- `BUILD_PDO`. -/
def execBuildPdo (kind : PdoKind) (fields : List Byte) (s : State) : Host.Outcome State Fault Refusal :=
  runOp .bytes (opCodec 0x25 (buildPdo kind fields)) s

/-- `PARSE_PDO_LIST`. -/
def execParsePdoList (objs : List Word32) (s : State) : Host.Outcome State Fault Refusal :=
  runOp .pdos (opPure (parsePdoList objs)) s

/-- `PARSE_VDM_HEADER`. -/
def execParseVdmHeader (b4 : Word32) (s : State) : Host.Outcome State Fault Refusal :=
  runOp .vdm (opPure (parseVdmHeader b4)) s

/-- `BUILD_VDM_HEADER`. -/
def execBuildVdmHeader (fields : VdmFields) (extraPayload : List Byte) (s : State) : Host.Outcome State Fault Refusal :=
  runOp .bytes (opCodec 0x28 (buildVdmHeader fields extraPayload)) s

/-- `BUILD_VDM_UNSTRUCTURED`. -/
def execBuildVdmUnstructured (svid : BitVec 16) (payload : BitVec 15) (extraPayload : List Byte) (s : State) :
    Host.Outcome State Fault Refusal :=
  runOp .bytes (opCodec 0x29 (buildVdmUnstructured svid payload extraPayload)) s

/-- `BUILD_REQUEST`. -/
def execBuildRequest (index current : Word32) (s : State) : Host.Outcome State Fault Refusal :=
  runOp (fun w => .bytes (wordBytes w)) (opCodec 0x2A (buildRequest index.toNat current.toNat)) s

/-- `PARSE_REQUEST`. -/
def execParseRequest (b4 : Word32) (s : State) : Host.Outcome State Fault Refusal :=
  runOp .request (opPure (parseRequest b4)) s

/-- `TYPE_LOOKUP`. -/
def execTypeLookup (cls : MsgClass) (t : BitVec 5) (s : State) : Host.Outcome State Fault Refusal :=
  runOp .name (opPure (typeLookup cls t)) s

end Sys2Proof.Machine
end

