-- ==== Sys2Proof/Machine/Sequencer.lean ====
section
/-! DEFINITION. Message Sequencer operations (`42_sequencer.md`, codes 0x30 to 0x33): the message-ID counter, sending a
command, the sent log. -/

namespace Sys2Proof.Machine

/-- `RESET_MSG_ID` (R250). -/
def opResetMsgId : Op Unit := opModify (updSes fun ses => { ses with msgId := none })

/-- `NEXT_MSG_ID` (R251). -/
def opNextMsgId : Op (BitVec 3) :=
  opBind (opSee .id Val.toId fun s => (nextId s.ses.msgId, s)) fun id =>
  opSeq (opModify (updSes fun ses => { ses with msgId := some id })) <|
  opPure id

/-- The log record of a sent payload (R27, R252): `messageType = p[1][4:0]`. -/
def sentRecord (p dataObjects : List Byte) (id : BitVec 3) : SentRecord where
  messageType := (p.getD 1 0).extractLsb' 0 5
  cls := classOf dataObjects.length
  messageId := id
  dataObjects := dataObjects

/-- `SEND_COMMAND command, dataObjects` (R252): the ID is consumed first, whatever follows. -/
def opSendCommand (command : MsgName) (dataObjects : List Byte) : Op Unit :=
  opBind opNextMsgId fun id =>
  opBind (opCfg) fun cfg =>
  let bits := roleBits cfg cfg.role
  opBind (opCodec 0x22 (encodeCommand command dataObjects id.toNat cfg.rev bits.1 bits.2)) fun p =>
  opSeq (opSendPacket p) <|
  opModify (updSes fun ses => { ses with sentLog := ses.sentLog ++ [sentRecord p dataObjects id] })

/-- `DRAIN_LOG` (R253). -/
def opDrainLog : Op Unit :=
  opBind (opSee .log Val.toLog fun s => (s.ses.sentLog, s)) fun log =>
  opSeq (opForEach (fun r => emit (.sent r)) log) <|
  opModify (updSes fun ses => { ses with sentLog := [] })

/-- `RESET_MSG_ID`. -/
def execResetMsgId (s : State) : Host.Outcome State Fault Refusal := runUnit opResetMsgId s

/-- `NEXT_MSG_ID`. -/
def execNextMsgId (s : State) : Host.Outcome State Fault Refusal := runOp .msgId opNextMsgId s

/-- `SEND_COMMAND`. -/
def execSendCommand (command : MsgName) (dataObjects : List Byte) (s : State) : Host.Outcome State Fault Refusal :=
  runUnit (opSendCommand command dataObjects) s

/-- `DRAIN_LOG`. -/
def execDrainLog (s : State) : Host.Outcome State Fault Refusal := runUnit opDrainLog s

end Sys2Proof.Machine
end

