-- ==== Sys2Proof/Machine/Negotiation.lean ====
section
/-! DEFINITION. The Negotiation State Machines (`43_negotiation.md`, codes 0x40 to 0x56): the poll iteration, dispatch,
interrupts and detach, the sink and source reactions, the VDM responder, the advertisement cadence. -/

namespace Sys2Proof.Machine

/-! ## Interrupts and detach (R286 to R289) -/

/-- The role's detection strategy, `debug = 0` (R165, R288, R384, R385). -/
def roleDetect (cfg : Cfg) : Role → Detect
  | .sink => .sink false
  | .source => .source (BitVec.ofNat 8 cfg.hostCurrentCode) false

/-- `DETACH_CHECK` (R288): `true` for Attached. -/
def opDetachCheck : Op Bool :=
  opBind (opCfg) fun cfg =>
  opBind (opFindCc (roleDetect cfg cfg.role)) fun pin =>
  if pin = .none then opSeq (emit .detached) (opPure false) else opPure true

/-- `INT_STEP` (R286, R287): every condition is reported, CompChange alone acts. `true` for Attached. -/
def opIntStep : Op Bool :=
  opBind opReadInt fun r =>
  opSeq (emit (.interrupts r.1 r.2.1 r.2.2)) <|
  opSeq (opForEach (fun c => emit (.intCondition c)) (decodeInt r.2.2)) <|
  if (decodeInt r.2.2).contains .compChange then opDetachCheck else opPure true

/-! ## Sink reactions (R290 to R299) -/

/-- `SINK_SEND_REQUEST pdos` (R291). -/
def opSinkSendRequest (pdos : List Pdo) : Op Unit :=
  opBind (askSelect pdos) fun ans =>
  match ans with
  | none => emit .noProfileSelected
  | some (index, current) =>
    opRequire (decide (index < pdos.length) && encodableRequest index current)
      (.caller (.badPolicyAnswer index current) 0x46) <|
    opBind (opCodec 0x2A (buildRequest index current)) fun rdo =>
    opSeq (opSendCommand .request (wordBytes rdo)) <|
    opModify (updSes fun ses =>
      { ses with selectedProfile := some (.sink index current), sinkState := .requestSent })

/-- `SINK_ON_SOURCE_CAPS m` (R290). -/
def opSinkOnSourceCaps (m : Message) : Op Unit := opSinkSendRequest (parsePdoList m.dataObjects)

/-- `SINK_ON_ACCEPT m` (R292). -/
def opSinkOnAccept (m : Message) : Op Unit :=
  opSeq (tell (.onAccept m)) <|
  opModify (updSes fun ses => { ses with sinkState := .powered })

/-- `VDM_RESPONSES[c]` for the six answered commands, none for every other (R293, R9). -/
def vdmResponse (cfg : Cfg) (command : BitVec 5) : Option (List Byte) :=
  match command.toNat with
  | 1 => some cfg.vdmIdentity
  | 2 => some cfg.vdmSvids
  | 3 => some cfg.vdmModes
  | 4 => some cfg.vdmEnter
  | 16 => some cfg.vdmDpStatus
  | 17 => some cfg.vdmDpConfig
  | _ => none

/-- The ACK a request is answered with: SVID, version, position and command echoed (R293). -/
def ackFields (svid : BitVec 16) (version : BitVec 4) (pos : BitVec 3) (command : BitVec 5) : VdmFields :=
  .structured (svid.setWidth 32) (version.setWidth 8) (pos.setWidth 8) 1 (command.setWidth 8)

/-- The responder's reaction to a VDM header (R293): a structured REQ of an answered command is answered, nothing else. -/
def opVdmRespond (v : VdmHeader) : Op Unit :=
  match v with
  | .unstructured _ _ => opPure ()
  | .structured svid version pos ct command =>
    if ct ≠ 0 then opPure ()
    else
      opBind (opCfg) fun cfg =>
      match vdmResponse cfg command with
      | none => opPure ()
      | some payload =>
        opBind (opCodec 0x28 (buildVdmHeader (ackFields svid version pos command) payload)) fun hdr =>
        opSendCommand .vendorDefined hdr

/-- `SINK_ON_VDM m` (R293). -/
def opSinkOnVdm (m : Message) : Op Unit :=
  match m.vdm with
  | none => opPure ()
  | some v => opVdmRespond v

/-- The responder's answer to one command: `SINK_ON_VDM` with that command and the request's fields (R294 to R299). The request
is a structured REQ by its form: R294 to R299 list no operands, DESIGN CHOICE, log 37. -/
def opVdmAnswer (command : BitVec 5) (r : VdmRequest) : Op Unit :=
  opVdmRespond (.structured r.svid r.version r.objectPosition 0 command)

/-! ## Source reactions (R300 to R308) -/

/-- The concatenated Fixed PDOs of an advertisement (R300). -/
def capsBytes : List FixedPdo → Except CodecError (List Byte)
  | [] => .ok []
  | p :: rest =>
    match buildFixedPdo p.voltage_mV p.maxCurrent_mA p.peakCurrentCode p.extraFlags with
    | .error e => .error e
    | .ok w =>
      match capsBytes rest with
      | .error e => .error e
      | .ok bs => .ok (wordBytes w ++ bs)

/-- `SOURCE_ADVERTISE` (R300). -/
def opSourceAdvertise : Op Unit :=
  opBind (opCfg) fun cfg =>
  opBind (opCodec 0x24 (capsBytes cfg.advertisedPdos)) fun caps =>
  opSendCommand .sourceCapabilities caps

/-- `SOURCE_ACCEPT pos, profile` (R303), with `index = pos - 1`. -/
def opSourceAccept (index : Nat) (profile : FixedPdo) : Op Unit :=
  opSeq (opSendCommand .accept []) <|
  opModify (updSes fun ses =>
    { ses with profileAccepted := true, selectedProfile := some (.source index profile), sourceState := .accepted })

/-- `SOURCE_PS_RDY profile, m` (R304). -/
def opSourcePsRdy (profile : FixedPdo) (m : Message) : Op Unit :=
  opSeq (tell (.switchToProfile profile m)) <|
  opBind (opCfg) fun cfg =>
  opSeq (waitFor cfg.psRdySettle) <|
  opSeq (opSendCommand .psRdy []) <|
  opModify (updSes fun ses => { ses with sourceState := .powered })

/-- `SOURCE_REJECT pos` (R305): nothing is sent. -/
def opSourceReject (pos : Nat) : Op Unit :=
  opSeq (tell .powerOff) <|
  opSeq (emit (.policyRejected pos)) <|
  opModify (updSes fun ses => { ses with selectedProfile := none, sourceState := .advertisementSent })

/-- The advertised profile at an object position; none for 0 and beyond the list (R302). -/
def profileAt (cfg : Cfg) (pos : Nat) : Option FixedPdo :=
  if pos = 0 then none else cfg.advertisedPdos[pos - 1]?

/-- `SOURCE_ON_REQUEST m` (R301, R302): only the first data object is read. -/
def opSourceOnRequest (m : Message) : Op Unit :=
  opSeq (opModify (updSes fun ses => { ses with sourceState := .validateProfile })) <|
  opBind (opCfg) fun cfg =>
  let pos := (parseRequest (m.dataObjects.headD 0)).objectPosition
  match profileAt cfg pos with
  | none => opSourceReject pos
  | some profile =>
    opBind (askValidate profile m) fun yes =>
    if yes then opSeq (opSourceAccept (pos - 1) profile) (opSourcePsRdy profile m)
    else opSourceReject pos

/-- Whether the cadence still counts: no profile accepted, re-sends left (R307). -/
def cadenceCounts (s : State) : Bool := !s.ses.profileAccepted && decide (s.ses.advRetries < s.cfg.advMaxRetries)

/-- Whether this iteration is a re-send (R307). -/
def cadenceDue (s : State) : Bool := cadenceCounts s && decide (s.ses.advIters + 1 = s.cfg.advPeriodIters)

/-- The cadence's counters after an iteration (R307). -/
def countIteration (s : State) : State :=
  if cadenceDue s then updSes (fun ses => { ses with advIters := 0, advRetries := ses.advRetries + 1 }) s
  else if cadenceCounts s then updSes (fun ses => { ses with advIters := ses.advIters + 1 }) s
  else s

/-- `ADV_CADENCE` (R307). -/
def opAdvCadence : Op Unit :=
  opBind (opSee .flag Val.toFlag fun s => (cadenceDue s, countIteration s)) fun due =>
  if due then opSourceAdvertise else opPure ()

/-! ## Both roles (R284, R309) -/

/-- `ON_SOFT_RESET` (R309). -/
def opOnSoftReset : Op Unit :=
  opSeq opResetMsgId <|
  opBind (opCfg) fun cfg =>
  match cfg.softResetReply with
  | .accept => opSendCommand .accept []
  | .silent => opPure ()

/-- The sink's reaction to a message name; every other name is ignored (R284, R312). -/
def opSinkDispatch (m : Message) : Op Unit :=
  match m.name with
  | .sourceCapabilities => opSinkOnSourceCaps m
  | .accept => opSinkOnAccept m
  | .psRdy => opSinkOnAccept m
  | .vendorDefined => opSinkOnVdm m
  | .softReset => opOnSoftReset
  | _ => opPure ()

/-- The source's reaction to a message name; every other name is ignored (R284, R308, R312). -/
def opSourceDispatch (m : Message) : Op Unit :=
  match m.name with
  | .request => opSourceOnRequest m
  | .softReset => opOnSoftReset
  | _ => opPure ()

/-- `DISPATCH m` (R284): primary SOP only (R310), on the name alone (R311). -/
def opDispatch (m : Message) : Op Unit :=
  if m.sop = .primary then
    opBind (opCfg) fun cfg =>
    match cfg.role with
    | .sink => opSinkDispatch m
    | .source => opSourceDispatch m
  else opPure ()

/-- Dispatch, then the report (R283, R285). -/
def opHandle (m : Message) : Op Unit := opSeq (opDispatch m) (emit (.received m))

/-- `RX_STEP` (R283), its scan for so many reads. -/
def opRxStep (reads : Nat) : Op Unit :=
  opBind opReadRxState fun st =>
  if st.1 then opPure ()
  else
    opBind (opParseMessage reads) fun r =>
    match r with
    | none => opPure ()
    | some m => opHandle m

/-! ## The poll iteration (R282) -/

/-- The interrupt part of an iteration: the pin's level, then `INT_STEP`. `true` for Attached. -/
def opIntPhase : Op Bool := opBind samplePin fun pin => if pin then opIntStep else opPure true

/-- The cadence part of an iteration: source only. -/
def opCadencePhase : Op Unit :=
  opBind (opCfg) fun cfg =>
  match cfg.role with
  | .sink => opPure ()
  | .source => opAdvCadence

/-- The sleep of an iteration (R407). -/
def opSleepPhase : Op Unit := opBind (opCfg) fun cfg => waitFor cfg.pollSleep

/-- The stop sample at the end of an iteration: Cancellation (R348). -/
def opStopPhase : Op Unit := opBind sampleStop fun stop => if stop then .exit .cancel else opPure ()

/-- `POLL_ITERATION` (R282), its scan for so many reads: `false` for Detached, which ends it at once (R289). -/
def opPollIteration (reads : Nat) : Op Bool :=
  opSeq (opRxStep reads) <|
  opBind opIntPhase fun attached =>
  if attached then
    opSeq opCadencePhase <|
    opSeq opDrainLog <|
    opSeq opSleepPhase <|
    opSeq opStopPhase <|
    opPure true
  else opPure false

/-! ## The instructions -/

/-- `POLL_ITERATION`. -/
def execPollIteration (s : State) : Host.Outcome State Fault Refusal :=
  runScan (some .pollIteration) .attached (opPollIteration (scanReads s)) s

/-- `RX_STEP`. -/
def execRxStep (s : State) : Host.Outcome State Fault Refusal :=
  runScan (some .rxStep) (fun _ => .unit) (opRxStep (scanReads s)) s

/-- `DISPATCH`. -/
def execDispatch (m : MsgOperand) (s : State) : Host.Outcome State Fault Refusal :=
  runUnit (opDispatch (operandMessage m)) s

/-- `INT_STEP`. -/
def execIntStep (s : State) : Host.Outcome State Fault Refusal := runOp .attached opIntStep s

/-- `DETACH_CHECK`. -/
def execDetachCheck (s : State) : Host.Outcome State Fault Refusal := runOp .attached opDetachCheck s

/-- `SINK_ON_SOURCE_CAPS`: a Source_Capabilities message (Data type 1). -/
def execSinkOnSourceCaps (m : DataOperand) (s : State) : Host.Outcome State Fault Refusal :=
  runUnit (opSinkOnSourceCaps (dataMessage 1#5 m)) s

/-- `SINK_SEND_REQUEST`. -/
def execSinkSendRequest (pdos : List Word32) (s : State) : Host.Outcome State Fault Refusal :=
  runUnit (opSinkSendRequest (parsePdoList pdos)) s

/-- `SINK_ON_ACCEPT`: an Accept or PS_RDY message. -/
def execSinkOnAccept (psRdy : Bool) (bits : MsgBits) (s : State) : Host.Outcome State Fault Refusal :=
  runUnit (opSinkOnAccept (acceptMessage psRdy bits)) s

/-- `SINK_ON_VDM`: a Vendor_Defined message (Data type 15). -/
def execSinkOnVdm (m : DataOperand) (s : State) : Host.Outcome State Fault Refusal :=
  runUnit (opSinkOnVdm (dataMessage 15#5 m)) s

/-- `VDM_DISCOVER_IDENTITY`. -/
def execVdmDiscoverIdentity (request : VdmRequest) (s : State) : Host.Outcome State Fault Refusal :=
  runUnit (opVdmAnswer 1#5 request) s

/-- `VDM_DISCOVER_SVIDS`. -/
def execVdmDiscoverSvids (request : VdmRequest) (s : State) : Host.Outcome State Fault Refusal :=
  runUnit (opVdmAnswer 2#5 request) s

/-- `VDM_DISCOVER_MODES`. -/
def execVdmDiscoverModes (request : VdmRequest) (s : State) : Host.Outcome State Fault Refusal :=
  runUnit (opVdmAnswer 3#5 request) s

/-- `VDM_ENTER_MODE`. -/
def execVdmEnterMode (request : VdmRequest) (s : State) : Host.Outcome State Fault Refusal :=
  runUnit (opVdmAnswer 4#5 request) s

/-- `VDM_DP_STATUS`. -/
def execVdmDpStatus (request : VdmRequest) (s : State) : Host.Outcome State Fault Refusal :=
  runUnit (opVdmAnswer 16#5 request) s

/-- `VDM_DP_CONFIGURE`. -/
def execVdmDpConfigure (request : VdmRequest) (s : State) : Host.Outcome State Fault Refusal :=
  runUnit (opVdmAnswer 17#5 request) s

/-- `SOURCE_ADVERTISE`. -/
def execSourceAdvertise (s : State) : Host.Outcome State Fault Refusal := runUnit opSourceAdvertise s

/-- `SOURCE_ON_REQUEST`: a Request message (Data type 2). -/
def execSourceOnRequest (m : DataOperand) (s : State) : Host.Outcome State Fault Refusal :=
  runUnit (opSourceOnRequest (dataMessage 2#5 m)) s

/-- `SOURCE_ACCEPT`. -/
def execSourceAccept (index : BitVec 3) (profile : BitVec 30) (s : State) : Host.Outcome State Fault Refusal :=
  runUnit (opSourceAccept index.toNat (profileOf profile)) s

/-- `SOURCE_PS_RDY`. -/
def execSourcePsRdy (profile : BitVec 30) (m : DataOperand) (s : State) : Host.Outcome State Fault Refusal :=
  runUnit (opSourcePsRdy (profileOf profile) (dataMessage 2#5 m)) s

/-- `SOURCE_REJECT`. -/
def execSourceReject (pos : BitVec 4) (s : State) : Host.Outcome State Fault Refusal :=
  runUnit (opSourceReject pos.toNat) s

/-- `ADV_CADENCE`. -/
def execAdvCadence (s : State) : Host.Outcome State Fault Refusal := runUnit opAdvCadence s

/-- `ON_SOFT_RESET`. -/
def execOnSoftReset (s : State) : Host.Outcome State Fault Refusal := runUnit opOnSoftReset s

/-- `SELECT_PDO_FOR_VOLTAGE`. -/
def execSelectPdoForVoltage (pdos : List Word32) (volts : Word32) (s : State) : Host.Outcome State Fault Refusal :=
  runOp .choice (opPure (selectPdoForVoltage (parsePdoList pdos) volts.toNat)) s

end Sys2Proof.Machine
end

