-- ==== Sys2Proof/Machine/Supervisor.lean ====
section
/-! DEFINITION. The supervisor (R388): setup (R384, R385, R390), the flow (R391), the operation each control state runs: one
setup step, one phase of the iteration, the recovery (R20), and the instructions 0x60 to 0x63. -/

namespace Sys2Proof.Machine

/-! ## Setup -/

/-- Session creation (R383). -/
def opCreateSession : Op Unit := opModify (updSes fun _ => Session.fresh)

/-- `FIND_CC` with a strategy, its result left in the session (R384 step 7, R385 step 8). -/
def opFindCcStep (detect : Detect) : Op Unit := opBind (opFindCc detect) fun _ => opPure ()

/-- The steps of sink setup, k = 0..8 (R384). -/
def sinkSetup (cfg : Cfg) : List (Op Unit) :=
  [opCreateSession, opReset, opPowerOn, opUnmaskInt, opSetTermination .sink, opConfigPhy, opSetRoleBits .sink,
   opFindCcStep (roleDetect cfg .sink), opResetMsgId]

/-- The steps of source setup, k = 0..10 (R385). -/
def sourceSetup (cfg : Cfg) : List (Op Unit) :=
  [opCreateSession, opReset, opPowerOn, opUnmaskInt, opSetTermination .source, opSetHostCurrent cfg.hostCurrentCode,
   opConfigPhy, opSetRoleBits .source, opFindCcStep (roleDetect cfg .source), opResetMsgId, opSourceAdvertise]

/-- The setup steps of a role. -/
def setupSteps (cfg : Cfg) : Role → List (Op Unit)
  | .sink => sinkSetup cfg
  | .source => sourceSetup cfg

/-- Run steps `k`, `k+1`, … with `ctl = Setup(role, k)` before step `k` (R390). -/
def opSetupFrom (role : Role) : Nat → List (Op Unit) → Op Unit
  | _, [] => opModify (setCtl (.flow role 0))
  | k, step :: rest => opSeq (opModify (setCtl (.setup role k))) <| opSeq step <| opSetupFrom role (k + 1) rest

/-- `SETUP` (R390). -/
def opSetup : Op Unit :=
  opBind (opCfg) fun cfg => opSetupFrom cfg.role 0 (setupSteps cfg cfg.role)

/-! ## The flow -/

/-- `RUN_FLOW` (R391), one turn of its loop, its scan for so many reads: an iteration with `ctl = Flow(ROLE, 0)`; Detached
leads to setup, otherwise the flow goes on (log 19). A cancellation leaves it as an exit, caught by `catchCancel`. -/
def opRunFlow (reads : Nat) : Op Unit :=
  opBind (opCfg) fun cfg =>
  opSeq (opModify (setCtl (.flow cfg.role 0))) <|
  opBind (opPollIteration reads) fun attached =>
  if attached then opPure () else opModify (setCtl (.setup cfg.role 0))

/-! ## The supervisor's operations (R20, R388) -/

/-- One step of setup: run step `k`, then `ctl` names the next, or the flow after the last (R384, R385, R281). -/
def opSuperSetup (role : Role) (k : Nat) : Op Unit :=
  opBind (opCfg) fun cfg =>
  opSeq (((setupSteps cfg role)[k]?).getD (opPure ())) <|
  opModify (setCtl (if k + 1 < (setupSteps cfg role).length then .setup role (k + 1) else .flow role 0))

/-- One phase of an iteration (R282): receive, interrupt, cadence, log drain, sleep, stop sample, in this order. `false`
for Detached. -/
def opFlowPhase (reads phase : Nat) : Op Bool :=
  match phase with
  | 0 => opSeq (opRxStep reads) (opPure true)
  | 1 => opIntPhase
  | 2 => opSeq opCadencePhase (opPure true)
  | 3 => opSeq opDrainLog (opPure true)
  | 4 => opSeq opSleepPhase (opPure true)
  | _ => opSeq opStopPhase (opPure true)

/-- One step of the flow: a phase, then `ctl` names the next, or the next iteration, or setup after a detach (R289). -/
def opSuperFlow (reads : Nat) (role : Role) (phase : Nat) : Op Unit :=
  opBind (opFlowPhase reads phase) fun attached =>
  opModify (setCtl
    (if attached then (if phase < 5 then .flow role (phase + 1) else .flow role 0) else .setup role 0))

/-- The operation the supervisor runs in a control state (R388), its scan for so many reads. -/
def opSuper (reads : Nat) : Ctl → Op Unit
  | .setup role k => opSuperSetup role k
  | .flow role phase => opSuperFlow reads role phase
  | .pause _ => opCancelRecover
  | .fault _ => .halt (.fault .halted)

/-! ## The instructions -/

/-- `BLOCK_RESET`. -/
def execBlockReset (s : State) : Host.Outcome State Fault Refusal := runUnit opBlockReset s

/-- `SETUP`. -/
def execSetup (s : State) : Host.Outcome State Fault Refusal := runUnit opSetup s

/-- `RUN_FLOW`. Where its receive step has not ended, the supervisor is in the same place of its own flow. -/
def execRunFlow (s : State) : Host.Outcome State Fault Refusal :=
  runScan none (fun _ => .unit) (opRunFlow (scanReads s)) s

/-- `CANCEL_RECOVER`. -/
def execCancelRecover (s : State) : Host.Outcome State Fault Refusal := runUnit opCancelRecover s

end Sys2Proof.Machine
end

