-- ==== Sys2Proof/Machine/Wire.lean ====
section
/-! DEFINITION. The wire encodings as instructions (`30_encoding.md`): what the block does with that one encoding (log 3). A
TX token is one FIFO write of its bytes (R101 to R104); an RX marker is the codec action on a scanned marker (R106); a
header row is the rest of the receive step after that header (R204 to R207, R283 to R285); a data object is parsed, and a
VDM command-type or command row is also given to the responder (R293). -/

namespace Sys2Proof.Machine

/-! ## Shared operations -/

/-- One token written to the TX FIFO, as `SEND_PACKET` writes them (R176). -/
def opToken (bs : List Byte) : Op Unit := memWrite 0x16 0x43 bs

/-- The PACKSYM token of `payload` (R103), then the bytes it announces. -/
def packsymBytes (payload : List Byte) : List Byte := (0x80 ||| BitVec.ofNat 8 payload.length) :: payload

/-- The codec action on a marker that starts a frame: the marker is consumed, the frame is read (R106, R202). -/
def opMarker (sop : Sop) : Op Message :=
  opSeq (opModify (setScan (some ⟨1, none, none, []⟩))) <| opParseFrame sop

/-- The codec action on `0x00`: stop, `NotReady` (R106, R345). -/
def opEmptyMarker : Op Unit := opModify (setScan none)

/-- The rest of the receive step after a header: data objects, CRC, dispatch and report (R204 to R207, R283). The marker
and two header bytes are consumed. -/
def opReceived (bits : MsgBits) (n : BitVec 3) (t : BitVec 5) : Op Message :=
  let hdr := headerOf bits n t
  opSeq (opModify (setScan (some ⟨3, some bits.sop, some hdr, []⟩))) <|
  opBind (opParseBody bits.sop hdr) fun m =>
  opSeq (opHandle m) <|
  opPure m

/-- A VDM header handed to the responder: the sink reacts (R293), the source never answers a VDM (R308). -/
def opVdmRow (w : Word32) : Op VdmHeader :=
  opBind (opCfg) fun cfg =>
  opSeq (match cfg.role with
    | .sink => opVdmRespond (parseVdmHeader w)
    | .source => opPure ()) <|
  opPure (parseVdmHeader w)

/-! ## TX tokens and RX markers -/

/-- `TOK_SYNC1`. -/
def execTokSync1 (s : State) : Host.Outcome State Fault Refusal := runUnit (opToken [0x12]) s

/-- `TOK_SYNC2`. -/
def execTokSync2 (s : State) : Host.Outcome State Fault Refusal := runUnit (opToken [0x13]) s

/-- `TOK_PACKSYM`. -/
def execTokPacksym (payload : List Byte) (s : State) : Host.Outcome State Fault Refusal :=
  runUnit (opToken (packsymBytes payload)) s

/-- `TOK_JAM_CRC`. -/
def execTokJamCrc (s : State) : Host.Outcome State Fault Refusal := runUnit (opToken [0xFF]) s

/-- `TOK_EOP`. -/
def execTokEop (s : State) : Host.Outcome State Fault Refusal := runUnit (opToken [0x14]) s

/-- `TOK_TXOFF`. -/
def execTokTxoff (s : State) : Host.Outcome State Fault Refusal := runUnit (opToken [0xFE]) s

/-- `TOK_TXON`. -/
def execTokTxon (s : State) : Host.Outcome State Fault Refusal := runUnit (opToken [0xA1]) s

/-- `RX_SOP`. -/
def execRxSop (s : State) : Host.Outcome State Fault Refusal := runOp .message (opMarker .primary) s

/-- `RX_SOP_PRIME`. -/
def execRxSopPrime (s : State) : Host.Outcome State Fault Refusal := runOp .message (opMarker .prime) s

/-- `RX_EMPTY_MARKER`. -/
def execRxEmptyMarker (s : State) : Host.Outcome State Fault Refusal := runOp (fun _ => .notReady) opEmptyMarker s

/-! ## Headers -/

/-- `HEADER`. -/
def execHeader (bits : MsgBits) (numDataObjects : BitVec 3) (messageType : BitVec 5) (s : State) : Host.Outcome State Fault Refusal :=
  runOp .header (opPure (headerOf bits numDataObjects messageType)) s

/-- `CTRL_RESERVED_0`. -/
def execCtrlReserved0 (bits : MsgBits) (s : State) : Host.Outcome State Fault Refusal :=
  runOp .message (opReceived bits 0#3 0#5) s

/-- `CTRL_GOODCRC`. -/
def execCtrlGoodcrc (bits : MsgBits) (s : State) : Host.Outcome State Fault Refusal :=
  runOp .message (opReceived bits 0#3 1#5) s

/-- `CTRL_GOTOMIN`. -/
def execCtrlGotomin (bits : MsgBits) (s : State) : Host.Outcome State Fault Refusal :=
  runOp .message (opReceived bits 0#3 2#5) s

/-- `CTRL_ACCEPT`. -/
def execCtrlAccept (bits : MsgBits) (s : State) : Host.Outcome State Fault Refusal :=
  runOp .message (opReceived bits 0#3 3#5) s

/-- `CTRL_REJECT`. -/
def execCtrlReject (bits : MsgBits) (s : State) : Host.Outcome State Fault Refusal :=
  runOp .message (opReceived bits 0#3 4#5) s

/-- `CTRL_PING`. -/
def execCtrlPing (bits : MsgBits) (s : State) : Host.Outcome State Fault Refusal :=
  runOp .message (opReceived bits 0#3 5#5) s

/-- `CTRL_PS_RDY`. -/
def execCtrlPsRdy (bits : MsgBits) (s : State) : Host.Outcome State Fault Refusal :=
  runOp .message (opReceived bits 0#3 6#5) s

/-- `CTRL_GET_SOURCE_CAP`. -/
def execCtrlGetSourceCap (bits : MsgBits) (s : State) : Host.Outcome State Fault Refusal :=
  runOp .message (opReceived bits 0#3 7#5) s

/-- `CTRL_GET_SINK_CAP`. -/
def execCtrlGetSinkCap (bits : MsgBits) (s : State) : Host.Outcome State Fault Refusal :=
  runOp .message (opReceived bits 0#3 8#5) s

/-- `CTRL_DR_SWAP`. -/
def execCtrlDrSwap (bits : MsgBits) (s : State) : Host.Outcome State Fault Refusal :=
  runOp .message (opReceived bits 0#3 9#5) s

/-- `CTRL_PR_SWAP`. -/
def execCtrlPrSwap (bits : MsgBits) (s : State) : Host.Outcome State Fault Refusal :=
  runOp .message (opReceived bits 0#3 10#5) s

/-- `CTRL_VCONN_SWAP`. -/
def execCtrlVconnSwap (bits : MsgBits) (s : State) : Host.Outcome State Fault Refusal :=
  runOp .message (opReceived bits 0#3 11#5) s

/-- `CTRL_WAIT`. -/
def execCtrlWait (bits : MsgBits) (s : State) : Host.Outcome State Fault Refusal :=
  runOp .message (opReceived bits 0#3 12#5) s

/-- `CTRL_SOFT_RESET`. -/
def execCtrlSoftReset (bits : MsgBits) (s : State) : Host.Outcome State Fault Refusal :=
  runOp .message (opReceived bits 0#3 13#5) s

/-- `CTRL_DATA_RESET`. -/
def execCtrlDataReset (bits : MsgBits) (s : State) : Host.Outcome State Fault Refusal :=
  runOp .message (opReceived bits 0#3 14#5) s

/-- `CTRL_DATA_RESET_COMPLETE`. -/
def execCtrlDataResetComplete (bits : MsgBits) (s : State) : Host.Outcome State Fault Refusal :=
  runOp .message (opReceived bits 0#3 15#5) s

/-- `CTRL_NOT_SUPPORTED`. -/
def execCtrlNotSupported (bits : MsgBits) (s : State) : Host.Outcome State Fault Refusal :=
  runOp .message (opReceived bits 0#3 16#5) s

/-- `CTRL_GET_SOURCE_CAP_EXTENDED`. -/
def execCtrlGetSourceCapExtended (bits : MsgBits) (s : State) : Host.Outcome State Fault Refusal :=
  runOp .message (opReceived bits 0#3 17#5) s

/-- `CTRL_GET_STATUS`. -/
def execCtrlGetStatus (bits : MsgBits) (s : State) : Host.Outcome State Fault Refusal :=
  runOp .message (opReceived bits 0#3 18#5) s

/-- `CTRL_FR_SWAP`. -/
def execCtrlFrSwap (bits : MsgBits) (s : State) : Host.Outcome State Fault Refusal :=
  runOp .message (opReceived bits 0#3 19#5) s

/-- `CTRL_GET_PPS_STATUS`. -/
def execCtrlGetPpsStatus (bits : MsgBits) (s : State) : Host.Outcome State Fault Refusal :=
  runOp .message (opReceived bits 0#3 20#5) s

/-- `CTRL_GET_COUNTRY_CODES`. -/
def execCtrlGetCountryCodes (bits : MsgBits) (s : State) : Host.Outcome State Fault Refusal :=
  runOp .message (opReceived bits 0#3 21#5) s

/-- `CTRL_GET_SINK_CAP_EXTENDED`. -/
def execCtrlGetSinkCapExtended (bits : MsgBits) (s : State) : Host.Outcome State Fault Refusal :=
  runOp .message (opReceived bits 0#3 22#5) s

/-- `CTRL_GET_SOURCE_INFO`. -/
def execCtrlGetSourceInfo (bits : MsgBits) (s : State) : Host.Outcome State Fault Refusal :=
  runOp .message (opReceived bits 0#3 23#5) s

/-- `DATA_RESERVED_0`. -/
def execDataReserved0 (bits : MsgBits) (numDataObjects : BitVec 3) (s : State) : Host.Outcome State Fault Refusal :=
  runOp .message (opReceived bits numDataObjects 0#5) s

/-- `DATA_SOURCE_CAPABILITIES`. -/
def execDataSourceCapabilities (bits : MsgBits) (numDataObjects : BitVec 3) (s : State) : Host.Outcome State Fault Refusal :=
  runOp .message (opReceived bits numDataObjects 1#5) s

/-- `DATA_REQUEST`. -/
def execDataRequest (bits : MsgBits) (numDataObjects : BitVec 3) (s : State) : Host.Outcome State Fault Refusal :=
  runOp .message (opReceived bits numDataObjects 2#5) s

/-- `DATA_BIST`. -/
def execDataBist (bits : MsgBits) (numDataObjects : BitVec 3) (s : State) : Host.Outcome State Fault Refusal :=
  runOp .message (opReceived bits numDataObjects 3#5) s

/-- `DATA_SINK_CAPABILITIES`. -/
def execDataSinkCapabilities (bits : MsgBits) (numDataObjects : BitVec 3) (s : State) : Host.Outcome State Fault Refusal :=
  runOp .message (opReceived bits numDataObjects 4#5) s

/-- `DATA_BATTERY_STATUS`. -/
def execDataBatteryStatus (bits : MsgBits) (numDataObjects : BitVec 3) (s : State) : Host.Outcome State Fault Refusal :=
  runOp .message (opReceived bits numDataObjects 5#5) s

/-- `DATA_ALERT`. -/
def execDataAlert (bits : MsgBits) (numDataObjects : BitVec 3) (s : State) : Host.Outcome State Fault Refusal :=
  runOp .message (opReceived bits numDataObjects 6#5) s

/-- `DATA_GET_COUNTRY_INFO`. -/
def execDataGetCountryInfo (bits : MsgBits) (numDataObjects : BitVec 3) (s : State) : Host.Outcome State Fault Refusal :=
  runOp .message (opReceived bits numDataObjects 7#5) s

/-- `DATA_ENTER_USB`. -/
def execDataEnterUsb (bits : MsgBits) (numDataObjects : BitVec 3) (s : State) : Host.Outcome State Fault Refusal :=
  runOp .message (opReceived bits numDataObjects 8#5) s

/-- `DATA_EPR_REQUEST`. -/
def execDataEprRequest (bits : MsgBits) (numDataObjects : BitVec 3) (s : State) : Host.Outcome State Fault Refusal :=
  runOp .message (opReceived bits numDataObjects 9#5) s

/-- `DATA_EPR_MODE`. -/
def execDataEprMode (bits : MsgBits) (numDataObjects : BitVec 3) (s : State) : Host.Outcome State Fault Refusal :=
  runOp .message (opReceived bits numDataObjects 10#5) s

/-- `DATA_SOURCE_INFO`. -/
def execDataSourceInfo (bits : MsgBits) (numDataObjects : BitVec 3) (s : State) : Host.Outcome State Fault Refusal :=
  runOp .message (opReceived bits numDataObjects 11#5) s

/-- `DATA_REVISION`. -/
def execDataRevision (bits : MsgBits) (numDataObjects : BitVec 3) (s : State) : Host.Outcome State Fault Refusal :=
  runOp .message (opReceived bits numDataObjects 12#5) s

/-- `DATA_RESERVED_13`. -/
def execDataReserved13 (bits : MsgBits) (numDataObjects : BitVec 3) (s : State) : Host.Outcome State Fault Refusal :=
  runOp .message (opReceived bits numDataObjects 13#5) s

/-- `DATA_RESERVED_14`. -/
def execDataReserved14 (bits : MsgBits) (numDataObjects : BitVec 3) (s : State) : Host.Outcome State Fault Refusal :=
  runOp .message (opReceived bits numDataObjects 14#5) s

/-- `DATA_VENDOR_DEFINED`. -/
def execDataVendorDefined (bits : MsgBits) (numDataObjects : BitVec 3) (s : State) : Host.Outcome State Fault Refusal :=
  runOp .message (opReceived bits numDataObjects 15#5) s

/-- `CTRL_UNKNOWN`. -/
def execCtrlUnknown (bits : MsgBits) (low : BitVec 3) (s : State) : Host.Outcome State Fault Refusal :=
  runOp .message (opReceived bits 0#3 (0b11#2 ++ low)) s

/-- `DATA_UNKNOWN`. -/
def execDataUnknown (bits : MsgBits) (numDataObjects : BitVec 3) (low : BitVec 4) (s : State) : Host.Outcome State Fault Refusal :=
  runOp .message (opReceived bits numDataObjects (1#1 ++ low)) s

/-! ## Data objects -/

/-- `PDO_FIXED`. -/
def execPdoFixed (w : BitVec 30) (s : State) : Host.Outcome State Fault Refusal :=
  runOp .pdo (opPure (parsePdo (pdoWord 0#2 w))) s

/-- `PDO_BATTERY`. -/
def execPdoBattery (w : BitVec 30) (s : State) : Host.Outcome State Fault Refusal :=
  runOp .pdo (opPure (parsePdo (pdoWord 1#2 w))) s

/-- `PDO_VARIABLE`. -/
def execPdoVariable (w : BitVec 30) (s : State) : Host.Outcome State Fault Refusal :=
  runOp .pdo (opPure (parsePdo (pdoWord 2#2 w))) s

/-- `PDO_PPS`. -/
def execPdoPps (w : BitVec 30) (s : State) : Host.Outcome State Fault Refusal :=
  runOp .pdo (opPure (parsePdo (pdoWord 3#2 w))) s

/-- `VDM_STRUCTURED`. -/
def execVdmStructured (bits : VdmBits) (commandType : BitVec 2) (command : BitVec 5) (s : State) : Host.Outcome State Fault Refusal :=
  runOp .vdm (opPure (parseVdmHeader (vdmWord bits commandType command))) s

/-- `VDM_UNSTRUCTURED`. -/
def execVdmUnstructured (svid : BitVec 16) (payload : BitVec 15) (s : State) : Host.Outcome State Fault Refusal :=
  runOp .vdm (opPure (parseVdmHeader (unstructuredWord svid payload))) s

/-- `VDM_CT_REQ`. -/
def execVdmCtReq (bits : VdmBits) (command : BitVec 5) (s : State) : Host.Outcome State Fault Refusal :=
  runOp .vdm (opVdmRow (vdmWord bits 0#2 command)) s

/-- `VDM_CT_ACK`. -/
def execVdmCtAck (bits : VdmBits) (command : BitVec 5) (s : State) : Host.Outcome State Fault Refusal :=
  runOp .vdm (opVdmRow (vdmWord bits 1#2 command)) s

/-- `VDM_CT_NAK`. -/
def execVdmCtNak (bits : VdmBits) (command : BitVec 5) (s : State) : Host.Outcome State Fault Refusal :=
  runOp .vdm (opVdmRow (vdmWord bits 2#2 command)) s

/-- `VDM_CT_BUSY`. -/
def execVdmCtBusy (bits : VdmBits) (command : BitVec 5) (s : State) : Host.Outcome State Fault Refusal :=
  runOp .vdm (opVdmRow (vdmWord bits 3#2 command)) s

/-- `VDM_CMD_DISCOVER_IDENTITY`. -/
def execVdmCmdDiscoverIdentity (bits : VdmBits) (commandType : BitVec 2) (s : State) : Host.Outcome State Fault Refusal :=
  runOp .vdm (opVdmRow (vdmWord bits commandType 1#5)) s

/-- `VDM_CMD_DISCOVER_SVIDS`. -/
def execVdmCmdDiscoverSvids (bits : VdmBits) (commandType : BitVec 2) (s : State) : Host.Outcome State Fault Refusal :=
  runOp .vdm (opVdmRow (vdmWord bits commandType 2#5)) s

/-- `VDM_CMD_DISCOVER_MODES`. -/
def execVdmCmdDiscoverModes (bits : VdmBits) (commandType : BitVec 2) (s : State) : Host.Outcome State Fault Refusal :=
  runOp .vdm (opVdmRow (vdmWord bits commandType 3#5)) s

/-- `VDM_CMD_ENTER_MODE`. -/
def execVdmCmdEnterMode (bits : VdmBits) (commandType : BitVec 2) (s : State) : Host.Outcome State Fault Refusal :=
  runOp .vdm (opVdmRow (vdmWord bits commandType 4#5)) s

/-- `VDM_CMD_EXIT_MODE`. -/
def execVdmCmdExitMode (bits : VdmBits) (commandType : BitVec 2) (s : State) : Host.Outcome State Fault Refusal :=
  runOp .vdm (opVdmRow (vdmWord bits commandType 5#5)) s

/-- `VDM_CMD_ATTENTION`. -/
def execVdmCmdAttention (bits : VdmBits) (commandType : BitVec 2) (s : State) : Host.Outcome State Fault Refusal :=
  runOp .vdm (opVdmRow (vdmWord bits commandType 6#5)) s

/-- `VDM_CMD_DP_STATUS_UPDATE`. -/
def execVdmCmdDpStatusUpdate (bits : VdmBits) (commandType : BitVec 2) (s : State) : Host.Outcome State Fault Refusal :=
  runOp .vdm (opVdmRow (vdmWord bits commandType 16#5)) s

/-- `VDM_CMD_DP_CONFIGURE`. -/
def execVdmCmdDpConfigure (bits : VdmBits) (commandType : BitVec 2) (s : State) : Host.Outcome State Fault Refusal :=
  runOp .vdm (opVdmRow (vdmWord bits commandType 17#5)) s

/-- `RDO_FIXED`. -/
def execRdoFixed (objectPosition : BitVec 4) (flags : BitVec 6) (operatingCurrent maxOperatingCurrent : BitVec 10) (s : State) : Host.Outcome State Fault Refusal :=
  runOp .request (opPure (parseRequest (rdoWord objectPosition flags operatingCurrent maxOperatingCurrent))) s

end Sys2Proof.Machine
end

