-- ==== Sys2Proof/Machine/Dispatch.lean ====
section
/-! DEFINITION. The meaning of every instruction: one arm per constructor, each one call of its meaning. -/

namespace Sys2Proof.Machine

/-- The effect of one instruction. -/
def exec (i : Instr) (s : State) : Host.Outcome State Fault Refusal :=
  match i with
  | .reset => Sys2Proof.Machine.execReset s
  | .resetPd => Sys2Proof.Machine.execResetPd s
  | .powerOn => Sys2Proof.Machine.execPowerOn s
  | .unmaskInt => Sys2Proof.Machine.execUnmaskInt s
  | .measureCc pin => Sys2Proof.Machine.execMeasureCc pin s
  | .currentLevel => Sys2Proof.Machine.execCurrentLevel s
  | .detectSink debug => Sys2Proof.Machine.execDetectSink debug s
  | .detectSource hostCode debug => Sys2Proof.Machine.execDetectSource hostCode debug s
  | .setTermination role => Sys2Proof.Machine.execSetTermination role s
  | .setRoleBits role => Sys2Proof.Machine.execSetRoleBits role s
  | .setHostCurrent code => Sys2Proof.Machine.execSetHostCurrent code s
  | .configPhy => Sys2Proof.Machine.execConfigPhy s
  | .findCc detect => Sys2Proof.Machine.execFindCc detect s
  | .enableTxSwitch pin => Sys2Proof.Machine.execEnableTxSwitch pin s
  | .flushRx => Sys2Proof.Machine.execFlushRx s
  | .flushTx => Sys2Proof.Machine.execFlushTx s
  | .setWake en => Sys2Proof.Machine.execSetWake en s
  | .decodeInt v => Sys2Proof.Machine.execDecodeInt v s
  | .readInt => Sys2Proof.Machine.execReadInt s
  | .readRxState => Sys2Proof.Machine.execReadRxState s
  | .readFifo n => Sys2Proof.Machine.execReadFifo n s
  | .sendPacket p => Sys2Proof.Machine.execSendPacket p s
  | .parseMessage => Sys2Proof.Machine.execParseMessage s
  | .encodeHeader ext n id rev pr dr t => Sys2Proof.Machine.execEncodeHeader ext n id rev pr dr t s
  | .encodeCommand command dataObjects messageId revision powerRole dataRole => Sys2Proof.Machine.execEncodeCommand command dataObjects messageId revision powerRole dataRole s
  | .parsePdo b4 => Sys2Proof.Machine.execParsePdo b4 s
  | .buildFixedPdo v c p f => Sys2Proof.Machine.execBuildFixedPdo v c p f s
  | .buildPdo kind fields => Sys2Proof.Machine.execBuildPdo kind fields s
  | .parsePdoList objs => Sys2Proof.Machine.execParsePdoList objs s
  | .parseVdmHeader b4 => Sys2Proof.Machine.execParseVdmHeader b4 s
  | .buildVdmHeader fields extraPayload => Sys2Proof.Machine.execBuildVdmHeader fields extraPayload s
  | .buildVdmUnstructured svid payload extraPayload => Sys2Proof.Machine.execBuildVdmUnstructured svid payload extraPayload s
  | .buildRequest index current => Sys2Proof.Machine.execBuildRequest index current s
  | .parseRequest b4 => Sys2Proof.Machine.execParseRequest b4 s
  | .typeLookup cls t => Sys2Proof.Machine.execTypeLookup cls t s
  | .resetMsgId => Sys2Proof.Machine.execResetMsgId s
  | .nextMsgId => Sys2Proof.Machine.execNextMsgId s
  | .sendCommand command dataObjects => Sys2Proof.Machine.execSendCommand command dataObjects s
  | .drainLog => Sys2Proof.Machine.execDrainLog s
  | .pollIteration => Sys2Proof.Machine.execPollIteration s
  | .rxStep => Sys2Proof.Machine.execRxStep s
  | .dispatch m => Sys2Proof.Machine.execDispatch m s
  | .intStep => Sys2Proof.Machine.execIntStep s
  | .detachCheck => Sys2Proof.Machine.execDetachCheck s
  | .sinkOnSourceCaps m => Sys2Proof.Machine.execSinkOnSourceCaps m s
  | .sinkSendRequest pdos => Sys2Proof.Machine.execSinkSendRequest pdos s
  | .sinkOnAccept psRdy bits => Sys2Proof.Machine.execSinkOnAccept psRdy bits s
  | .sinkOnVdm m => Sys2Proof.Machine.execSinkOnVdm m s
  | .vdmDiscoverIdentity request => Sys2Proof.Machine.execVdmDiscoverIdentity request s
  | .vdmDiscoverSvids request => Sys2Proof.Machine.execVdmDiscoverSvids request s
  | .vdmDiscoverModes request => Sys2Proof.Machine.execVdmDiscoverModes request s
  | .vdmEnterMode request => Sys2Proof.Machine.execVdmEnterMode request s
  | .vdmDpStatus request => Sys2Proof.Machine.execVdmDpStatus request s
  | .vdmDpConfigure request => Sys2Proof.Machine.execVdmDpConfigure request s
  | .sourceAdvertise => Sys2Proof.Machine.execSourceAdvertise s
  | .sourceOnRequest m => Sys2Proof.Machine.execSourceOnRequest m s
  | .sourceAccept index profile => Sys2Proof.Machine.execSourceAccept index profile s
  | .sourcePsRdy profile m => Sys2Proof.Machine.execSourcePsRdy profile m s
  | .sourceReject pos => Sys2Proof.Machine.execSourceReject pos s
  | .advCadence => Sys2Proof.Machine.execAdvCadence s
  | .onSoftReset => Sys2Proof.Machine.execOnSoftReset s
  | .selectPdoForVoltage pdos volts => Sys2Proof.Machine.execSelectPdoForVoltage pdos volts s
  | .blockReset => Sys2Proof.Machine.execBlockReset s
  | .setup => Sys2Proof.Machine.execSetup s
  | .runFlow => Sys2Proof.Machine.execRunFlow s
  | .cancelRecover => Sys2Proof.Machine.execCancelRecover s
  | .tokSync1 => Sys2Proof.Machine.execTokSync1 s
  | .tokSync2 => Sys2Proof.Machine.execTokSync2 s
  | .tokPacksym payload => Sys2Proof.Machine.execTokPacksym payload s
  | .tokJamCrc => Sys2Proof.Machine.execTokJamCrc s
  | .tokEop => Sys2Proof.Machine.execTokEop s
  | .tokTxoff => Sys2Proof.Machine.execTokTxoff s
  | .tokTxon => Sys2Proof.Machine.execTokTxon s
  | .rxSop => Sys2Proof.Machine.execRxSop s
  | .rxSopPrime => Sys2Proof.Machine.execRxSopPrime s
  | .rxEmptyMarker => Sys2Proof.Machine.execRxEmptyMarker s
  | .header bits numDataObjects messageType => Sys2Proof.Machine.execHeader bits numDataObjects messageType s
  | .ctrlReserved0 bits => Sys2Proof.Machine.execCtrlReserved0 bits s
  | .ctrlGoodcrc bits => Sys2Proof.Machine.execCtrlGoodcrc bits s
  | .ctrlGotomin bits => Sys2Proof.Machine.execCtrlGotomin bits s
  | .ctrlAccept bits => Sys2Proof.Machine.execCtrlAccept bits s
  | .ctrlReject bits => Sys2Proof.Machine.execCtrlReject bits s
  | .ctrlPing bits => Sys2Proof.Machine.execCtrlPing bits s
  | .ctrlPsRdy bits => Sys2Proof.Machine.execCtrlPsRdy bits s
  | .ctrlGetSourceCap bits => Sys2Proof.Machine.execCtrlGetSourceCap bits s
  | .ctrlGetSinkCap bits => Sys2Proof.Machine.execCtrlGetSinkCap bits s
  | .ctrlDrSwap bits => Sys2Proof.Machine.execCtrlDrSwap bits s
  | .ctrlPrSwap bits => Sys2Proof.Machine.execCtrlPrSwap bits s
  | .ctrlVconnSwap bits => Sys2Proof.Machine.execCtrlVconnSwap bits s
  | .ctrlWait bits => Sys2Proof.Machine.execCtrlWait bits s
  | .ctrlSoftReset bits => Sys2Proof.Machine.execCtrlSoftReset bits s
  | .ctrlDataReset bits => Sys2Proof.Machine.execCtrlDataReset bits s
  | .ctrlDataResetComplete bits => Sys2Proof.Machine.execCtrlDataResetComplete bits s
  | .ctrlNotSupported bits => Sys2Proof.Machine.execCtrlNotSupported bits s
  | .ctrlGetSourceCapExtended bits => Sys2Proof.Machine.execCtrlGetSourceCapExtended bits s
  | .ctrlGetStatus bits => Sys2Proof.Machine.execCtrlGetStatus bits s
  | .ctrlFrSwap bits => Sys2Proof.Machine.execCtrlFrSwap bits s
  | .ctrlGetPpsStatus bits => Sys2Proof.Machine.execCtrlGetPpsStatus bits s
  | .ctrlGetCountryCodes bits => Sys2Proof.Machine.execCtrlGetCountryCodes bits s
  | .ctrlGetSinkCapExtended bits => Sys2Proof.Machine.execCtrlGetSinkCapExtended bits s
  | .ctrlGetSourceInfo bits => Sys2Proof.Machine.execCtrlGetSourceInfo bits s
  | .dataReserved0 bits numDataObjects => Sys2Proof.Machine.execDataReserved0 bits numDataObjects s
  | .dataSourceCapabilities bits numDataObjects => Sys2Proof.Machine.execDataSourceCapabilities bits numDataObjects s
  | .dataRequest bits numDataObjects => Sys2Proof.Machine.execDataRequest bits numDataObjects s
  | .dataBist bits numDataObjects => Sys2Proof.Machine.execDataBist bits numDataObjects s
  | .dataSinkCapabilities bits numDataObjects => Sys2Proof.Machine.execDataSinkCapabilities bits numDataObjects s
  | .dataBatteryStatus bits numDataObjects => Sys2Proof.Machine.execDataBatteryStatus bits numDataObjects s
  | .dataAlert bits numDataObjects => Sys2Proof.Machine.execDataAlert bits numDataObjects s
  | .dataGetCountryInfo bits numDataObjects => Sys2Proof.Machine.execDataGetCountryInfo bits numDataObjects s
  | .dataEnterUsb bits numDataObjects => Sys2Proof.Machine.execDataEnterUsb bits numDataObjects s
  | .dataEprRequest bits numDataObjects => Sys2Proof.Machine.execDataEprRequest bits numDataObjects s
  | .dataEprMode bits numDataObjects => Sys2Proof.Machine.execDataEprMode bits numDataObjects s
  | .dataSourceInfo bits numDataObjects => Sys2Proof.Machine.execDataSourceInfo bits numDataObjects s
  | .dataRevision bits numDataObjects => Sys2Proof.Machine.execDataRevision bits numDataObjects s
  | .dataReserved13 bits numDataObjects => Sys2Proof.Machine.execDataReserved13 bits numDataObjects s
  | .dataReserved14 bits numDataObjects => Sys2Proof.Machine.execDataReserved14 bits numDataObjects s
  | .dataVendorDefined bits numDataObjects => Sys2Proof.Machine.execDataVendorDefined bits numDataObjects s
  | .ctrlUnknown bits low => Sys2Proof.Machine.execCtrlUnknown bits low s
  | .dataUnknown bits numDataObjects low => Sys2Proof.Machine.execDataUnknown bits numDataObjects low s
  | .pdoFixed w => Sys2Proof.Machine.execPdoFixed w s
  | .pdoBattery w => Sys2Proof.Machine.execPdoBattery w s
  | .pdoVariable w => Sys2Proof.Machine.execPdoVariable w s
  | .pdoPps w => Sys2Proof.Machine.execPdoPps w s
  | .vdmStructured bits commandType command => Sys2Proof.Machine.execVdmStructured bits commandType command s
  | .vdmUnstructured svid payload => Sys2Proof.Machine.execVdmUnstructured svid payload s
  | .vdmCtReq bits command => Sys2Proof.Machine.execVdmCtReq bits command s
  | .vdmCtAck bits command => Sys2Proof.Machine.execVdmCtAck bits command s
  | .vdmCtNak bits command => Sys2Proof.Machine.execVdmCtNak bits command s
  | .vdmCtBusy bits command => Sys2Proof.Machine.execVdmCtBusy bits command s
  | .vdmCmdDiscoverIdentity bits commandType => Sys2Proof.Machine.execVdmCmdDiscoverIdentity bits commandType s
  | .vdmCmdDiscoverSvids bits commandType => Sys2Proof.Machine.execVdmCmdDiscoverSvids bits commandType s
  | .vdmCmdDiscoverModes bits commandType => Sys2Proof.Machine.execVdmCmdDiscoverModes bits commandType s
  | .vdmCmdEnterMode bits commandType => Sys2Proof.Machine.execVdmCmdEnterMode bits commandType s
  | .vdmCmdExitMode bits commandType => Sys2Proof.Machine.execVdmCmdExitMode bits commandType s
  | .vdmCmdAttention bits commandType => Sys2Proof.Machine.execVdmCmdAttention bits commandType s
  | .vdmCmdDpStatusUpdate bits commandType => Sys2Proof.Machine.execVdmCmdDpStatusUpdate bits commandType s
  | .vdmCmdDpConfigure bits commandType => Sys2Proof.Machine.execVdmCmdDpConfigure bits commandType s
  | .rdoFixed objectPosition flags operatingCurrent maxOperatingCurrent => Sys2Proof.Machine.execRdoFixed objectPosition flags operatingCurrent maxOperatingCurrent s

end Sys2Proof.Machine
end

