-- ==== Sys2Proof/Machine/Port.lean ====
section
/-! DEFINITION. What `step` is made of: the invoked instruction (log 1), what runs it in which control state (R351,
R388), and the supervisor's own step, one primitive at a time (R20, R388). -/

namespace Sys2Proof.Machine

/-- The number a refusal gives a decoder's error: their order in `DecodeError`. -/
def errorNumber : DecodeError → Nat
  | .truncated => 0
  | .unassignedCode _ => 1
  | .badOperands _ => 2
  | .noToken _ => 3
  | .noMarker _ => 4
  | .wrongClass _ => 5
  | .noVdmRow _ => 6
  | .reservedRdo _ => 7

/-- Whether the control state is `Fault`, where nothing runs but block reset (R351). -/
def halted (c : Ctl) : Bool :=
  match c with
  | .fault _ => true
  | _ => false

/-- The port emptied: the invocation is taken, and an operation that was under way is given up where it stands (log 1). -/
def takePort (s : State) : State := { s with port := none, notes := [], running := none, scan := none }

/-- Run an invoked instruction: in `Fault` only block reset runs (R351, R388, log 17). -/
def runInvoked (i : Instr) (s : State) : Host.Outcome State Fault Refusal :=
  if halted s.ctl && decide (i ≠ .blockReset) then .fault .halted else exec i (takePort s)

/-- Decode an invocation and run it; bytes that are no encoding are refused (R130). -/
def runInvocation (inv : Invocation) (s : State) : Host.Outcome State Fault Refusal :=
  match decode inv.format inv.bytes with
  | .ok i => runInvoked i s
  | .error e => .refused (.noEncoding (errorNumber e))

/-- The state when an operation has ended: no position, no codec state (R20, R31). -/
def endOperation (s : State) : State := { s with notes := [], running := none, scan := none }

/-- An invoked operation whose own step did not end it, with its result recorded at its end (log 18). -/
def opRunning (reads : Nat) : Running → Op Unit
  | .parseMessage => opBind (opParseMessage reads) fun r => opModify (setResult (parseValue r))
  | .rxStep => opSeq (opRxStep reads) <| opModify (setResult .unit)
  | .pollIteration => opBind (opPollIteration reads) fun attached => opModify (setResult (.attached attached))

/-- The operation under way: the invoked one that has not ended, else the supervisor's own; in `Fault` none (R351, R388). -/
def opUnderWay (reads : Nat) (s : State) : Op Unit :=
  match s.running with
  | some r => if halted s.ctl then .halt (.fault .halted) else opRunning reads r
  | none => opSuper reads s.ctl

/-- What is left of the operation under way, its scan written down for so many reads: all of it at the start, else what its
position leaves (R20). -/
def opLeft (reads : Nat) (s : State) : Op Unit :=
  match s.notes with
  | [] => opUnderWay reads s
  | n :: notes => opAfter s.cfg (opUnderWay reads s) (n :: notes)

/-- The operation a step of the supervisor goes on with. A position of `n` entries is at most `n` reads into a scan, so one
written down for more goes on after it (log 18). -/
def currentOp (s : State) : Op Unit := opLeft (s.notes.length + 2) s

/-- The outcome of a step of the supervisor: the next position, or the operation's end, with an exit taken (R350, R348). -/
def superOutcome : Part Unit → Host.Outcome State Fault Refusal
  | .before notes s => .next { s with notes := notes }
  | .ended (.ok _ s) => .next (endOperation s)
  | .ended (.exit x s) => .next (endOperation (takeExit x s))
  | .ended (.halt (.fault f)) => .fault f
  | .ended (.halt (.refused r)) => .refused r

/-- The supervisor's step: the next primitive of the operation under way, with what the block does up to the one after it
(R20, R388). -/
def superStep (s : State) : Host.Outcome State Fault Refusal := superOutcome (runPrims (currentOp s) 1 s.notes s)

/-- The invocation a table word stands for: the format it is read in, and its bytes with zeros after them. -/
def tableInvocation (nbits w : Nat) : Invocation :=
  match tableFormat nbits w with
  | some f => ⟨f, tableBytes f w⟩
  | none => ⟨.op, tableBytes .op w⟩

end Sys2Proof.Machine
end

