-- ==== Sys2Proof/Machine/Step.lean ====
section
/-! DEFINITION. One step of the machine: the invoked instruction when the port holds one, else the supervisor (R388, log 1,
log 4). -/

namespace Sys2Proof.Machine

/-- One step. -/
def step (s : State) : Host.Outcome State Fault Refusal :=
  match s.port with
  | some inv => runInvocation inv s
  | none => superStep s

/-- `s` with the instruction of a table word placed where the next step takes it (log 23). -/
def State.withFetchWord (s : State) (nbits w : Nat) : State := { s with port := some (tableInvocation nbits w) }

end Sys2Proof.Machine
end

