-- ==== Sys2Proof/Safety.lean ====
section
/-! DEFINITION. The terms claims are stated in: when the bus completes its transactions, what an operation leaves alone, and
the invariant of the machine. -/

namespace Sys2Proof.Machine

/-! ## The environment -/

/-- Every transaction of the schedule completes: no BusError from the transport (R341). -/
def BusCompletes (s : State) : Prop := ∀ e ∈ s.env, e.bus = .completes

/-- Whether a change of the PHY is one of a CC level. -/
def setsLevel : PhyAct → Bool
  | .cc1 _ => true
  | .cc2 _ => true
  | _ => false

/-- The CC levels stay as they are (R53, R55). -/
def LevelsSteady (s : State) : Prop := ∀ e ∈ s.env, ∀ a ∈ e.acts, setsLevel a = false

/-- Room for `n` more bytes in the TX FIFO (R65, I14). The environment only drains it. -/
def TxRoom (n : Nat) (s : State) : Prop := s.phy.tx.length + n ≤ s.cfg.txFifoBytes.val

/-! ## Frames -/

/-- The block's own state other than the session: configuration, control state and position, error status, transient codec
state, the inputs, the port. -/
structure KeepsBlock (s t : State) : Prop where
  cfg : t.cfg = s.cfg
  ctl : t.ctl = s.ctl
  notes : t.notes = s.notes
  running : t.running = s.running
  lastError : t.lastError = s.lastError
  scan : t.scan = s.scan
  stops : t.stops = s.stops
  selects : t.selects = s.selects
  validates : t.validates = s.validates
  port : t.port = s.port

/-- Every PHY register outside `changed` reads as before: the machine's memory (R61). -/
def KeepsRegs (changed : List Nat) (s t : State) : Prop :=
  ∀ a, a ∉ changed → regRead t.phy.regs a = regRead s.phy.regs a

/-- The PHY's FIFOs. -/
structure KeepsFifos (s t : State) : Prop where
  rx : t.phy.rx = s.phy.rx
  tx : t.phy.tx = s.phy.tx

/-- The PHY's latches, live status, levels and cable. -/
structure KeepsLatches (s t : State) : Prop where
  intA : t.phy.intA = s.phy.intA
  intB : t.phy.intB = s.phy.intB
  intI : t.phy.intI = s.phy.intI
  cc1 : t.phy.cc1 = s.phy.cc1
  cc2 : t.phy.cc2 = s.phy.cc2
  status0 : t.phy.status0 = s.phy.status0
  status1 : t.phy.status1 = s.phy.status1
  status1a : t.phy.status1a = s.phy.status1a
  wire : t.phy.wire = s.phy.wire

/-- The primitives done from `s` to `t`, in order (R364). -/
def Does (s t : State) (ps : List Prim) : Prop := t.trace = s.trace ++ ps

/-- The events emitted from `s` to `t`, in order (R366). -/
def Emits (s t : State) (es : List Event) : Prop := t.diag = s.diag ++ es

/-- Nothing of the machine but the result and the trace differs: what a pure operation leaves (R223). -/
def PureResult (s : State) (v : Value) : State := { s with result := v }

/-! ## The invariant -/

/-- Every listed register is one of the map's `R/W` registers, and its `W/C` and reserved bits are 0 (R34, R63). -/
def RegsMapped (m : Memory) : Prop :=
  ∀ c ∈ m, ∃ info ∈ phyMap, info.addr = c.1 ∧ info.access = .readWrite ∧ c.2 &&& (info.act ||| info.zero) = 0

/-- The control state is one of the block's: its role, a step of that role's setup, a phase of an iteration (R20, R282,
R384, R385). -/
def CtlLegal (cfg : Cfg) : Ctl → Prop
  | .setup role k => role = cfg.role ∧ k < (setupSteps cfg role).length
  | .flow role phase => role = cfg.role ∧ phase ≤ 5
  | .pause _ => True
  | .fault _ => True

/-- What every step keeps. -/
structure Inv (s : State) : Prop where
  /-- The configuration passed the check of block reset (R381). -/
  config : checkConfig s.cfg = true
  /-- The register memory is in canonical form (log 9). -/
  regsWf : Memory.wf s.phy.regs = true
  regsMapped : RegsMapped s.phy.regs
  /-- The FIFOs hold at most their capacity (R54). -/
  rxBound : s.phy.rx.length ≤ s.cfg.rxFifoBytes
  txBound : s.phy.tx.length ≤ s.cfg.txFifoBytes.val
  /-- InterruptB's bits 7:1 read 0 (R51). -/
  intB : s.phy.intB &&& 0xFE = 0
  /-- No codec state survives an operation (R31): there is none where no operation is under way. -/
  scan : s.notes = [] → s.scan = none
  /-- No invoked operation is left of one (log 18): there is none where no operation is under way. -/
  running : s.notes = [] → s.running = none
  ctl : CtlLegal s.cfg s.ctl
  /-- The block is in `Fault` exactly when `lastError` holds that error (R30, R350, R351). -/
  fault : ∀ e, s.ctl = .fault e ↔ s.lastError = some e
  /-- No operation is under way in `Fault` (R351). -/
  rest : (∃ e, s.ctl = .fault e) → s.notes = []
  /-- The cadence counters stay in their ranges (R24, R307). -/
  advIters : s.ses.advIters < s.cfg.advPeriodIters
  advRetries : s.ses.advRetries ≤ s.cfg.advMaxRetries

end Sys2Proof.Machine
end

