-- ==== Sys2Proof/Certificates/Slice0/Obligations.lean ====
section
/-! DEFINITION. The statements for the provers: what the rules of `spec/` say the instructions and the machine do. -/

open Sys2Proof Sys2Proof.Machine

/-! ## The machine -/

/-- A step with an invocation in the port runs the decoded instruction, with the port emptied and an operation that was under
way given up; in `Fault` only `BLOCK_RESET` runs and everything else stops the machine (R351, R388). How an instruction is
invoked, what becomes of an operation under way, and that the stop is a fault named `halted`, are the model's own (log 1,
log 17). -/
def Obligations.StepRunsTheInvokedInstruction : Prop :=
  ∀ (s : State) (inv : Invocation) (i : Instr), s.port = some inv → decode inv.format inv.bytes = .ok i →
    ((∀ e, s.ctl ≠ .fault e) → step s = exec i { s with port := none, notes := [], running := none, scan := none }) ∧
    (i = .blockReset → step s = exec i { s with port := none, notes := [], running := none, scan := none }) ∧
    ((∃ e, s.ctl = .fault e) → i ≠ .blockReset → step s = .fault .halted)

/-- R130: the operation codes are `0x01`–`0x16`, `0x20`–`0x2C`, `0x30`–`0x33`, `0x40`–`0x56`, `0x60`–`0x63`. The decoder
finds every other code unassigned whatever follows it, and no code of the ranges. That an invocation of any format whose
bytes decode to nothing, for its operands too, is refused by a step, in every control state, is the model's port (log 1,
log 17). -/
def Obligations.UnassignedCodesAreRefused : Prop :=
  (∀ (code : Byte) (rest : List Byte),
    decode .op (code :: rest) = .error (.unassignedCode code) ↔
      ¬ ((0x01 ≤ code.toNat ∧ code.toNat ≤ 0x16) ∨ (0x20 ≤ code.toNat ∧ code.toNat ≤ 0x2C) ∨
         (0x30 ≤ code.toNat ∧ code.toNat ≤ 0x33) ∨ (0x40 ≤ code.toNat ∧ code.toNat ≤ 0x56) ∨
         (0x60 ≤ code.toNat ∧ code.toNat ≤ 0x63))) ∧
  ∀ (s : State) (inv : Invocation) (e : DecodeError), s.port = some inv → decode inv.format inv.bytes = .error e →
    ∃ k, step s = .refused (.noEncoding k)

/-- Decoding an encoded well-formed instruction gives it back, whatever bytes follow, for every instruction and every value
of its operands. The layout of an operation's operands, and the SOP byte behind a header, are the model's own (log 1). -/
def Obligations.DecodeReadsBackEncode : Prop :=
  ∀ (i : Instr) (rest : List Byte), i.wf = true → decode (encode i).1 ((encode i).2 ++ rest) = .ok i

/-- The headers, data objects, tokens and markers `95_test_vectors.md` writes out, and the operation code `0x0E`, decode to the
rows they stand for. The SOP byte 0x00 behind the two header bytes, and the operand byte 0x02 behind the operation code, are
the model's own layout and no words of the spec (log 1). -/
def Obligations.WrittenWordsDecode : Prop :=
  decode .headerControl [0x03, 0xA3, 0x00] = .ok (.ctrlAccept ⟨.primary, 0, 1, 1, 2, 1⟩) ∧
  decode .headerData [0x11, 0xA1, 0x00] = .ok (.dataSourceCapabilities ⟨.primary, 0, 0, 1, 2, 1⟩ 1) ∧
  decode .headerData [0x2C, 0x91, 0x00] = .ok (.dataUnknown ⟨.primary, 0, 6, 0, 2, 0⟩ 2 1) ∧
  decode .pdo [0x96, 0x90, 0x01, 0x00] = .ok (.pdoFixed 0x00019096) ∧
  decode .pdo [0x3C, 0x21, 0xA4, 0xC1] = .ok (.pdoPps 0x01A4213C) ∧
  decode .vdmCommand [0x04, 0x81, 0x01, 0xFF] = .ok (.vdmCmdEnterMode ⟨0xFF01, 0, 1, 0⟩ 0) ∧
  decode .vdmHeader [0x34, 0x12, 0x01, 0xFF] = .ok (.vdmUnstructured 0xFF01 0x1234) ∧
  decode .rdo [0x96, 0x58, 0x02, 0x10] = .ok (.rdoFixed 1 0 150 150) ∧
  decode .txToken [0x82, 0x03, 0xA3] = .ok (.tokPacksym [0x03, 0xA3]) ∧
  decode .rxMarker [0xC0] = .ok .rxSopPrime ∧
  decode .op [0x0E, 0x02] = .ok (.enableTxSwitch 2)

/-- After block reset the block is at step 0 of its role's setup with no error and an empty diagnostic stream (R380), and
every PHY register of R386 that has a value reads it. That the PHY stands at its power-on values there, and the
configuration itself, are the model's choices (log 12, log 26). -/
def Obligations.ResetLeavesSetupStepZero : Prop :=
  State.reset.ctl = .setup State.reset.cfg.role 0 ∧ State.reset.lastError = none ∧ State.reset.diag = [] ∧
  [0x02, 0x03, 0x04, 0x06, 0x07, 0x08, 0x09, 0x0A, 0x0B, 0x0C, 0x0E, 0x0F].map (regRead State.reset.phy.regs) =
    [0x03, 0x20, 0x31, 0x24, 0x00, 0x02, 0x06, 0x00, 0x01, 0x00, 0x00, 0x00] ∧
  State.reset.phy.intA = 0 ∧ State.reset.phy.intB = 0 ∧ State.reset.phy.intI = 0 ∧
  State.reset.phy.rx = [] ∧ State.reset.phy.tx = [] ∧ status1Byte State.reset.cfg State.reset.phy = 0x28

/-- The invariant holds after block reset. -/
def Obligations.InvariantAtReset : Prop := Inv State.reset

/-- Every step that answers a next state keeps the invariant.

R29: the configuration is read-only after block reset: no step changes it. -/
def Obligations.StepKeepsInvariant : Prop :=
  (∀ s t : State, Inv s → step s = .next t → Inv t) ∧
  (∀ s t : State, step s = .next t → t.cfg = s.cfg)

/-- R351: in `Fault` no step answers a next state unless it runs `BLOCK_RESET`, and `BLOCK_RESET` with a configuration
that passes R381 leaves it for step 0 of setup with no error recorded.

R389, R381, R382: `BLOCK_RESET` clears the error and the diagnostic stream and goes to step 0 of the role's setup, or, with
a configuration the check refuses, takes CallerError(BadConfig) with operation `0x60`; it leaves the PHY and the session
alone and makes no transaction in either case. -/
def Obligations.FaultIsLeftByBlockResetOnly : Prop :=
  (∀ (s : State) (e : Err), s.ctl = .fault e →
    ((∀ inv, s.port = some inv → decode inv.format inv.bytes ≠ .ok .blockReset) → ∀ t, step s ≠ .next t) ∧
    (∀ inv, s.port = some inv → decode inv.format inv.bytes = .ok .blockReset → checkConfig s.cfg = true →
      ∃ t, step s = .next t ∧ t.ctl = .setup s.cfg.role 0 ∧ t.lastError = none ∧ t.diag = [])) ∧
  (∀ s : State,
    (checkConfig s.cfg = true →
      ∃ t, exec .blockReset s = .next t ∧ t.ctl = .setup s.cfg.role 0 ∧ t.lastError = none ∧ t.diag = [] ∧
        t.phy = s.phy ∧ t.ses = s.ses ∧ t.trace = s.trace) ∧
    (checkConfig s.cfg = false →
      ∃ t, exec .blockReset s = .next t ∧ t.ctl = .fault (.caller .badConfig 0x60) ∧
        t.lastError = some (.caller .badConfig 0x60) ∧ t.diag = [.fault (.caller .badConfig 0x60)] ∧
        t.phy = s.phy ∧ t.ses = s.ses ∧ Does s t [.emit (.fault (.caller .badConfig 0x60))]))

/-- R350: an instruction that ends in `Fault` got there by an error that surfaced: `lastError` holds the same kind and
information, and the `Fault` event is the last thing emitted and the last primitive done. -/
def Obligations.FaultRecordsItsError : Prop :=
  ∀ (i : Instr) (s t : State) (e : Err), exec i s = .next t → t.ctl = .fault e → (∀ e', s.ctl ≠ .fault e') →
    t.lastError = some e ∧ (∃ d, t.diag = d ++ [Event.fault e]) ∧ ∃ p, t.trace = p ++ [Prim.emit (.fault e)]

/-- R20: the supervisor steps one primitive at a time. A step without an invocation does at most one primitive, after which
the position counts one more, or the operation has ended; only an error that surfaces (R350) adds its own event.

The supervisor's setup is `SETUP`: from step 0 its primitives, one at a time, reach the state one `SETUP` reaches, whether
setup ends in the flow or an error surfaces on the way (R384, R385, R388, R390). Where in an operation the block reads its
registers between two primitives is the model's (log 4). -/
def Obligations.SupervisorRunsSetup : Prop :=
  (∀ s t : State, s.port = none → step s = .next t →
    (∃ ps, Does s t ps ∧ (ps.length ≤ 1 ∨ ∃ p e, t.ctl = .fault e ∧ ps = [p, .emit (.fault e)])) ∧
    (t.notes ≠ [] → (∃ us, t.notes = s.notes ++ us) ∧ position t.notes = position s.notes + 1)) ∧
  (∀ s t : State, s.port = none → s.notes = [] → s.running = none → s.scan = none → s.ctl = .setup s.cfg.role 0 →
    exec .setup s = .next t →
    ∃ (n : Nat) (u : State), 1 ≤ n ∧ Host.Core.run core n s = .next u ∧ t = { u with result := t.result })

/-- The supervisor's flow is `RUN_FLOW`: from the start of an iteration its primitives, one at a time, reach the state one turn
of `RUN_FLOW` reaches: the next iteration, setup after a detach, `Pause` after a stop, or `Fault` (R20, R282, R289, R388, R391);
or the place in the receive step of an iteration whose scan has not ended. One turn for each `RUN_FLOW`, and the reads it makes
of such a scan, are the model's (log 4, log 18, log 19). -/
def Obligations.SupervisorRunsFlow : Prop :=
  ∀ s t : State, s.port = none → s.notes = [] → s.running = none → s.scan = none → s.ctl = .flow s.cfg.role 0 →
    exec .runFlow s = .next t →
    ∃ (n : Nat) (u : State), 1 ≤ n ∧ Host.Core.run core n s = .next u ∧ t = { u with result := t.result }

/-! ## Transceiver Driver: registers -/

/-- R150, R69: `RESET` is one write of SW_RES. Every register reads its reset value, both FIFOs are empty, the latches are
clear; nothing of the block changes.

R151, R69: `RESET_PD` is one write of PD_RESET and leaves the registers unchanged. That it changes no latch and no byte of a
FIFO by itself is the model's reading of R69 (log 11). -/
def Obligations.ResetsActAtOnce : Prop :=
  (∀ s : State, busFate s = .completes →
    ∃ t, exec .reset s = .next t ∧
      (∀ a, regRead t.phy.regs a = regReset a) ∧ t.phy.rx = [] ∧ t.phy.tx = [] ∧
      t.phy.intA = 0 ∧ t.phy.intB = 0 ∧ t.phy.intI = 0 ∧ intPin t.phy = false ∧
      Does s t [.wr 0x0C [0x01]] ∧ t.result = .unit ∧ KeepsBlock s t ∧ t.ses = s.ses ∧ t.diag = s.diag) ∧
  (∀ s : State, busFate s = .completes →
    ∃ t, exec .resetPd s = .next t ∧ KeepsRegs [] s t ∧
      t.phy.rx = (envTick s).phy.rx ∧ t.phy.tx = (envTick s).phy.tx ∧
      t.phy.intA = (envTick s).phy.intA ∧ t.phy.intB = (envTick s).phy.intB ∧ t.phy.intI = (envTick s).phy.intI ∧
      Does s t [.wr 0x0C [0x02]] ∧ t.result = .unit ∧ KeepsBlock s t ∧ t.ses = s.ses ∧ t.diag = s.diag)

/-- A register set outright by one write: `instr` writes `v` at `a`, which then reads `v`; nothing else changes. -/
def WritesRegister (instr : Instr) (a v : Byte) (s : State) : Prop :=
  ∃ t, exec instr s = .next t ∧ regRead t.phy.regs a.toNat = v ∧ KeepsRegs [a.toNat] s t ∧
    Does s t [.wr a [v]] ∧ t.result = .unit ∧ KeepsBlock s t ∧ t.ses = s.ses ∧ t.diag = s.diag ∧
    (s.env = [] → KeepsFifos s t ∧ KeepsLatches s t)

/-- R152, R159, R160: `POWER_ON`, `SET_TERMINATION` and `SET_ROLE_BITS` set one register to a value of their own, whatever
it held. The role bits and the revision are those of a configuration that R381 accepts.

R162: `CONFIG_PHY` writes `PHY_CONTROL3`, which Control3 then reads. R43: it does not set SEND_HARD_RESET, and nothing goes on
the cable. With
`ENABLE_SOP_PRIME` it also sets ENSOP1 and keeps Control1's other bits; without, Control1 is not accessed. That no
configuration has a `PHY_CONTROL3` with bit 6 set is the model's reading of R43 (log 28). -/
def Obligations.SetupHelpersSetTheirRegisters : Prop :=
  (∀ (s : State) (role : Role), busFate s = .completes → Memory.wf s.phy.regs = true → checkConfig s.cfg = true →
    WritesRegister .powerOn 0x0B 0x0F s ∧
    WritesRegister (.setTermination .sink) 0x02 0x03 s ∧
    WritesRegister (.setTermination .source) 0x02 0xC0 s ∧
    ∃ v : Byte, WritesRegister (.setRoleBits role) 0x03 v s ∧
      (v.extractLsb' 7 1).toNat = (if role = .sink then s.cfg.sinkRoleBits.1 else s.cfg.sourceRoleBits.1) ∧
      (v.extractLsb' 5 2).toNat = s.cfg.rev ∧
      (v.extractLsb' 4 1).toNat = (if role = .sink then s.cfg.sinkRoleBits.2 else s.cfg.sourceRoleBits.2) ∧
      v.extractLsb' 0 4 = 0b0100#4) ∧
  (∀ s : State, BusCompletes s → Memory.wf s.phy.regs = true → RegsMapped s.phy.regs → s.cfg.phyControl3.val ≤ 255 →
    ∃ t, exec .configPhy s = .next t ∧ t.result = .unit ∧
      regRead t.phy.regs 0x09 = BitVec.ofNat 8 s.cfg.phyControl3.val ∧
      (BitVec.ofNat 8 s.cfg.phyControl3.val).getLsbD 6 = false ∧
      (s.cfg.enableSopPrime = false → KeepsRegs [0x09] s t ∧
        Does s t [.wr 0x09 [BitVec.ofNat 8 s.cfg.phyControl3.val]]) ∧
      (s.cfg.enableSopPrime = true → KeepsRegs [0x09, 0x07] s t ∧
        regRead t.phy.regs 0x07 = regRead s.phy.regs 0x07 ||| 0x01 ∧
        Does s t [.wr 0x09 [BitVec.ofNat 8 s.cfg.phyControl3.val], .rd 0x07 [regRead s.phy.regs 0x07],
          .wr 0x07 [regRead s.phy.regs 0x07 ||| 0x01]]) ∧
      KeepsBlock s t ∧ t.ses = s.ses ∧ t.diag = s.diag ∧ (s.env = [] → KeepsFifos s t ∧ KeepsLatches s t))

/-- R153: `UNMASK_INT` clears the three masks and then INT_MASK, and keeps Control0's other bits: the trace is the rule's,
and afterwards the pin is asserted exactly when some latch bit is set (R85). -/
def Obligations.UnmaskIntUnmasksEverything : Prop :=
  ∀ s : State, BusCompletes s → Memory.wf s.phy.regs = true → RegsMapped s.phy.regs →
    ∃ t, exec .unmaskInt s = .next t ∧
      regRead t.phy.regs 0x0A = 0 ∧ regRead t.phy.regs 0x0E = 0 ∧ regRead t.phy.regs 0x0F = 0 ∧
      regRead t.phy.regs 0x06 = regRead s.phy.regs 0x06 &&& 0xDF ∧ KeepsRegs [0x06, 0x0A, 0x0E, 0x0F] s t ∧
      (intPin t.phy = true ↔ t.phy.intA ≠ 0 ∨ t.phy.intB ≠ 0 ∨ t.phy.intI ≠ 0) ∧
      Does s t [.wr 0x0A [0x00], .wr 0x0E [0x00], .wr 0x0F [0x00], .rd 0x06 [regRead s.phy.regs 0x06],
        .wr 0x06 [regRead s.phy.regs 0x06 &&& 0xDF]] ∧
      t.result = .unit ∧ KeepsBlock s t ∧ t.ses = s.ses ∧ t.diag = s.diag ∧
      (s.env = [] → KeepsFifos s t ∧ KeepsLatches s t)

/-- A read-modify-write of one register: `instr` reads `a`, writes `w`, and the register then reads `w`; nothing else
changes. -/
def RewritesRegister (instr : Instr) (a w : Byte) (s : State) : Prop :=
  ∃ t, exec instr s = .next t ∧ regRead t.phy.regs a.toNat = w ∧ KeepsRegs [a.toNat] s t ∧
    Does s t [.rd a [regRead s.phy.regs a.toNat], .wr a [w]] ∧ t.result = .unit ∧
    KeepsBlock s t ∧ t.ses = s.ses ∧ t.diag = s.diag ∧ (s.env = [] → KeepsFifos s t ∧ KeepsLatches s t)

/-- R154, R161, R164, R170: `MEASURE_CC`, `SET_HOST_CURRENT`, `ENABLE_TX_SWITCH` and `SET_WAKE` change their field of one
register by a read and a write, and keep its other bits. -/
def Obligations.FieldOperationsKeepTheOtherBits : Prop :=
  ∀ s : State, BusCompletes s → Memory.wf s.phy.regs = true → RegsMapped s.phy.regs → s.cfg.rev ≤ 3 →
    RewritesRegister (.measureCc 1) 0x02 ((regRead s.phy.regs 0x02 &&& 0xF3) ||| 0x04) s ∧
    RewritesRegister (.measureCc 2) 0x02 ((regRead s.phy.regs 0x02 &&& 0xF3) ||| 0x08) s ∧
    (∀ code : Byte, code.toNat ≤ 3 →
      RewritesRegister (.setHostCurrent code) 0x06 ((regRead s.phy.regs 0x06 &&& 0xF3#8) ||| (code <<< 2)) s) ∧
    RewritesRegister (.enableTxSwitch 1) 0x03
      ((regRead s.phy.regs 0x03 &&& 0x9C#8) ||| (BitVec.ofNat 8 s.cfg.rev <<< 5) ||| 0x01#8) s ∧
    RewritesRegister (.enableTxSwitch 2) 0x03
      ((regRead s.phy.regs 0x03 &&& 0x9C#8) ||| (BitVec.ofNat 8 s.cfg.rev <<< 5) ||| 0x02#8) s ∧
    RewritesRegister (.setWake true) 0x08 (regRead s.phy.regs 0x08 ||| 0x08) s ∧
    RewritesRegister (.setWake false) 0x08 (regRead s.phy.regs 0x08 &&& 0xF7) s

/-- R166, R167, R168: a flush is one read-modify-write of its self-clearing bit: the FIFO is empty, the register reads as
before, and no further transaction confirms it. -/
def Obligations.FlushesEmptyOneFifo : Prop :=
  ∀ s : State, BusCompletes s → Memory.wf s.phy.regs = true → RegsMapped s.phy.regs →
    (∃ t, exec .flushRx s = .next t ∧ t.phy.rx = [] ∧ KeepsRegs [] s t ∧
      Does s t [.rd 0x07 [regRead s.phy.regs 0x07], .wr 0x07 [regRead s.phy.regs 0x07 ||| 0x04]] ∧
      t.result = .unit ∧ KeepsBlock s t ∧ t.ses = s.ses ∧ t.diag = s.diag ∧
      (s.env = [] → t.phy.tx = s.phy.tx ∧ KeepsLatches s t)) ∧
    ∃ t, exec .flushTx s = .next t ∧ t.phy.tx = [] ∧ KeepsRegs [] s t ∧
      Does s t [.rd 0x06 [regRead s.phy.regs 0x06], .wr 0x06 [regRead s.phy.regs 0x06 ||| 0x40]] ∧
      t.result = .unit ∧ KeepsBlock s t ∧ t.ses = s.ses ∧ t.diag = s.diag ∧
      (s.env = [] → t.phy.rx = s.phy.rx ∧ KeepsLatches s t)

/-! ## Transceiver Driver: levels, interrupts, FIFO reads -/

/-- R155, R400: `CURRENT_LEVEL` reads Status0 once and returns its two low bits: the level of the one pin in the measure mux
once the comparator has settled, any code otherwise (the value is free there, log 6).

R156, R169: `DETECT_SINK` with levels that stay as they are returns the pin with the strictly higher code, None on a
tie; `debug` only adds the `CcMeasured` event. It leaves the measure mux on CC2 and nothing else changed.

R157, R169: `DETECT_SOURCE` with levels that stay as they are returns the pin whose code equals `hostCode`, CC1 first,
None if neither does.

That the comparator works whatever the Power and Measure registers hold is the model's choice (log 34, log 35). -/
def Obligations.LevelsAndDetection : Prop :=
  (∀ s : State, busFate s = .completes →
    ∃ t c, exec .currentLevel s = .next t ∧ t.result = .level c ∧
      (s.phy.settle = 0 → regRead s.phy.regs 0x02 &&& 0x0C = 0x04 → c = (envTick s).phy.cc1) ∧
      (s.phy.settle = 0 → regRead s.phy.regs 0x02 &&& 0x0C = 0x08 → c = (envTick s).phy.cc2) ∧
      (∃ v : Byte, Does s t [.rd 0x40 [v]] ∧ v &&& 0x03 = c.setWidth 8) ∧
      KeepsRegs [] s t ∧ KeepsBlock s t ∧ t.ses = s.ses ∧ t.diag = s.diag ∧
      (s.env = [] → KeepsFifos s t ∧ KeepsLatches s t)) ∧
  (∀ (s : State) (debug : Bool), BusCompletes s → LevelsSteady s → Memory.wf s.phy.regs = true → RegsMapped s.phy.regs →
    ∃ t, exec (.detectSink debug) s = .next t ∧
      t.result = .pin (if s.phy.cc2.toNat < s.phy.cc1.toNat then .cc1
        else if s.phy.cc1.toNat < s.phy.cc2.toNat then .cc2 else .none) ∧
      Emits s t (if debug then [Event.ccMeasured s.phy.cc1 s.phy.cc2] else []) ∧
      regRead t.phy.regs 0x02 = (regRead s.phy.regs 0x02 &&& 0xF3) ||| 0x08 ∧ KeepsRegs [0x02] s t ∧
      KeepsBlock s t ∧ t.ses = s.ses ∧ (s.env = [] → KeepsFifos s t ∧ KeepsLatches s t)) ∧
  (∀ (s : State) (code : Byte) (debug : Bool), code.toNat ≤ 3 → BusCompletes s → LevelsSteady s →
    Memory.wf s.phy.regs = true → RegsMapped s.phy.regs →
    ∃ t, exec (.detectSource code debug) s = .next t ∧
      t.result = .pin (if s.phy.cc1.toNat = code.toNat then .cc1
        else if s.phy.cc2.toNat = code.toNat then .cc2 else .none) ∧
      Emits s t (if debug then [Event.ccMeasured s.phy.cc1 s.phy.cc2] else []) ∧
      regRead t.phy.regs 0x02 = (regRead s.phy.regs 0x02 &&& 0xF3) ||| 0x08 ∧ KeepsRegs [0x02] s t ∧
      KeepsBlock s t ∧ t.ses = s.ses ∧ (s.env = [] → KeepsFifos s t ∧ KeepsLatches s t))

/-- The pin a detection strategy names for two codes: R156 for a sink, R157 for a source. -/
def StrategyPin (detect : Detect) (c1 c2 : BitVec 2) : CCPin :=
  match detect with
  | .sink _ => if c2.toNat < c1.toNat then .cc1 else if c1.toNat < c2.toNat then .cc2 else .none
  | .source code _ => if c1.toNat = code.toNat then .cc1 else if c2.toNat = code.toNat then .cc2 else .none

/-- R163, R406: `FIND_CC` stores and returns the detected pin, leaves the transmitter and the measure mux on that pin, or
on `DEFAULT_PIN` for None, keeps the other bits of Switches0 and Switches1, Control0 and Control1, and leaves both FIFOs
empty but for what the environment brings at the last of its 17 transactions, the reset of the protocol logic. That the bytes
brought there are still in the RX FIFO after that reset is the model's reading of R69 (log 11), where R163 says both FIFOs are
empty; that the comparator works whatever the Power and Measure registers hold is the model's choice (log 34, log 35). -/
def Obligations.FindCcSettlesOntoThePin : Prop :=
  ∀ (s : State) (detect : Detect), BusCompletes s → LevelsSteady s → Memory.wf s.phy.regs = true →
    RegsMapped s.phy.regs → s.cfg.rev ≤ 3 → s.cfg.defaultPin ≠ .none →
    (∀ code debug, detect = .source code debug → code.toNat ≤ 3) →
    ∃ t, exec (.findCc detect) s = .next t ∧
      t.ses = { s.ses with ccPin := StrategyPin detect s.phy.cc1 s.phy.cc2 } ∧
      t.result = .pin (StrategyPin detect s.phy.cc1 s.phy.cc2) ∧
      (t.ses.ccPin = .cc1 ∨ (t.ses.ccPin = .none ∧ s.cfg.defaultPin = .cc1) →
        regRead t.phy.regs 0x02 = (regRead s.phy.regs 0x02 &&& 0xF3) ||| 0x04 ∧
        regRead t.phy.regs 0x03 = (regRead s.phy.regs 0x03 &&& 0x9C#8) ||| (BitVec.ofNat 8 s.cfg.rev <<< 5) ||| 0x01#8) ∧
      (t.ses.ccPin = .cc2 ∨ (t.ses.ccPin = .none ∧ s.cfg.defaultPin = .cc2) →
        regRead t.phy.regs 0x02 = (regRead s.phy.regs 0x02 &&& 0xF3) ||| 0x08 ∧
        regRead t.phy.regs 0x03 = (regRead s.phy.regs 0x03 &&& 0x9C#8) ||| (BitVec.ofNat 8 s.cfg.rev <<< 5) ||| 0x02#8) ∧
      KeepsRegs [0x02, 0x03] s t ∧ KeepsBlock s t ∧ t.phy.tx = [] ∧ t.env = s.env.drop 17 ∧
      (∃ u : State, u.cfg = s.cfg ∧ u.env = s.env.drop 16 ∧ u.phy.rx = [] ∧ u.phy.regs = t.phy.regs ∧
        t.phy.rx = (envTick u).phy.rx) ∧
      (s.env = [] → t.phy.rx = [] ∧ KeepsLatches s t)

/-- The conditions of the set bits of an Interrupt byte, bit 7 first (R52, R287). -/
def SetConditions (i : Byte) : List IntCond :=
  let pick (k : Nat) (c : IntCond) : List IntCond := if i.getLsbD k then [c] else []
  pick 7 .vbusOk ++ pick 6 .activity ++ pick 5 .compChange ++ pick 4 .crc ++ pick 3 .alert ++ pick 2 .wake ++
    pick 1 .collision ++ pick 0 .bcLevel

/-- R171, R287: `DECODE_INT` names the condition of each set bit and no other, bit 7 first, and does nothing else. -/
def Obligations.DecodeIntNamesTheSetBits : Prop :=
  ∀ (i : Byte) (s : State), exec (.decodeInt i) s = .next (PureResult s (.conditions (SetConditions i)))

/-- R172: `READ_INT` reads `0x3E`, `0x3F`, `0x42` in this order and returns their bytes. With nothing latching meanwhile it
returns the latched bytes, all three are clear after, and the pin is deasserted (R85). -/
def Obligations.ReadIntReadsAndClears : Prop :=
  ∀ s : State, BusCompletes s →
    ∃ t a b i, exec .readInt s = .next t ∧ t.result = .intBytes a b i ∧
      Does s t [.rd 0x3E [a], .rd 0x3F [b], .rd 0x42 [i]] ∧
      t.phy.intI = 0 ∧ KeepsRegs [] s t ∧ KeepsBlock s t ∧ t.ses = s.ses ∧ t.diag = s.diag ∧
      (s.env = [] → a = s.phy.intA ∧ b = s.phy.intB ∧ i = s.phy.intI ∧ t.phy.intA = 0 ∧ t.phy.intB = 0 ∧
        intPin t.phy = false ∧ KeepsFifos s t)

/-- R173: `READ_RX_STATE` reads Status1 once: `empty` says whether the RX FIFO is empty, `full` whether it holds its
capacity.

R174, R64: `READ_FIFO n` returns exactly `n` bytes, the oldest of the RX FIFO and then `FIFO_UNDERFLOW_BYTE`, and removes
them; for `n = 0` nothing happens and no transaction is made. -/
def Obligations.ReceiveReads : Prop :=
  (∀ s : State, busFate s = .completes →
    ∃ t v, exec .readRxState s = .next t ∧
      t.result = .rxState (decide ((envTick s).phy.rx = []))
        (decide (s.cfg.rxFifoBytes ≤ (envTick s).phy.rx.length)) ∧
      Does s t [.rd 0x41 [v]] ∧ t.phy = (envTick s).phy ∧ KeepsBlock s t ∧ t.ses = s.ses ∧ t.diag = s.diag) ∧
  (∀ (s : State) (n : Byte), busFate s = .completes →
    (n = 0 → exec (.readFifo n) s = .next (PureResult s (.bytes []))) ∧
    (n ≠ 0 → ∃ t bs, exec (.readFifo n) s = .next t ∧ t.result = .bytes bs ∧ bs.length = n.toNat ∧
      Does s t [.rd 0x43 bs] ∧
      (∀ k, k < n.toNat → bs[k]? = some (((envTick s).phy.rx[k]?).getD s.cfg.fifoUnderflow)) ∧
      t.phy = { (envTick s).phy with rx := (envTick s).phy.rx.drop n.toNat } ∧
      KeepsBlock s t ∧ t.ses = s.ses ∧ t.diag = s.diag))

/-! ## Transceiver Driver: transmission -/

/-- R176, R404: `SEND_PACKET` of a legal payload is exactly three FIFO writes, SOP, payload, EOP, and nothing else; with a
PHY that does not transmit meanwhile they are appended to the TX FIFO. -/
def Obligations.SendPacketWritesThreeTimes : Prop :=
  ∀ (s : State) (p : List Byte) (k : Nat), p.length = 2 + 4 * k → k ≤ 7 → BusCompletes s → TxRoom (p.length + 9) s →
    ∃ t, exec (.sendPacket p) s = .next t ∧
      Does s t [.wr 0x43 [0x12, 0x12, 0x12, 0x13, BitVec.ofNat 8 (128 + p.length)], .wr 0x43 p,
        .wr 0x43 [0xFF, 0x14, 0xFE, 0xA1]] ∧
      (s.env = [] → t.phy = { s.phy with tx := s.phy.tx ++
        ([0x12, 0x12, 0x12, 0x13, BitVec.ofNat 8 (128 + p.length)] ++ p ++ [0xFF, 0x14, 0xFE, 0xA1]) }) ∧
      KeepsRegs [] s t ∧ t.result = .unit ∧ KeepsBlock s t ∧ t.ses = s.ses ∧ t.diag = s.diag

/-- R102 to R104: the bytes of each TX token. That the row of a token, run by itself, is one FIFO write of its bytes is the
model's (log 3). -/
def TokenBytes : Instr → Option (List Byte)
  | .tokSync1 => some [0x12]
  | .tokSync2 => some [0x13]
  | .tokPacksym payload => some (BitVec.ofNat 8 (128 + payload.length) :: payload)
  | .tokJamCrc => some [0xFF]
  | .tokEop => some [0x14]
  | .tokTxoff => some [0xFE]
  | .tokTxon => some [0xA1]
  | _ => none

/-- Each of the seven TX token rows appends its bytes to the TX FIFO in one write (R65, R102 to R104; log 3). -/
def Obligations.TokensAreOneFifoWrite : Prop :=
  ∀ (s : State) (i : Instr) (bs : List Byte), TokenBytes i = some bs → i.wf = true → busFate s = .completes →
    TxRoom bs.length s →
    ∃ t, exec i s = .next t ∧ Does s t [.wr 0x43 bs] ∧
      t.phy = { (envTick s).phy with tx := (envTick s).phy.tx ++ bs } ∧ t.result = .unit ∧
      KeepsBlock s t ∧ t.ses = s.ses ∧ t.diag = s.diag

/-- Run instructions one after another, stopping at the first that does not answer a next state. -/
def runAll : List Instr → State → Host.Outcome State Fault Refusal
  | [], s => .next s
  | i :: rest, s =>
    match exec i s with
    | .next t => runAll rest t
    | .fault f => .fault f
    | .refused r => .refused r

/-- What a transmission of `payload` leaves of the PHY `p` (R66, R104, R107): the bytes consumed, the frame on the cable with its
CRC, on the pins Switches1 selects and as often as AUTO_RETRY and N_RETRIES allow, then what the PHY sends by itself
(`after`), and the end latched. -/
structure SendsFrame (p q : Phy) (payload : List Byte) (acked : Bool) (after : List WireEvent) : Prop where
  tx : q.tx = []
  regs : q.regs = p.regs
  rx : q.rx = p.rx
  intA : q.intA = p.intA ||| (if acked then 0x04 else 0x10)
  wire : ∃ f : WireFrame, q.wire = p.wire ++ .frame f :: after ∧ f.sop = true ∧ f.payload = payload ∧
    f.crc = some (crc32 payload) ∧ f.eop = true ∧ f.off = true ∧ f.acked = acked ∧
    f.txcc1 = (regRead p.regs 0x03).getLsbD 0 ∧ f.txcc2 = (regRead p.regs 0x03).getLsbD 1 ∧
    f.copies ≤ 1 + ((regRead p.regs 0x09).extractLsb' 1 2).toNat ∧
    ((regRead p.regs 0x09).getLsbD 0 = false → f.copies = 1) ∧
    ((regRead p.regs 0x09).getLsbD 0 = true → acked = false →
      f.copies = 1 + ((regRead p.regs 0x09).extractLsb' 1 2).toNat)

/-- R66, R104, R107: once a frame's TXON token is in the TX FIFO, the PHY transmits it: the payload with its CRC after it, on
the pins Switches1 selects, sent again up to N_RETRIES times with AUTO_RETRY, and I_TXSENT or I_RETRYFAIL latched; the
frame's bytes are consumed.

R43: after failed retries the PHY sends a Soft Reset by itself with AUTO_SOFTRESET, and after that failed a Hard Reset with
AUTO_HARDRESET.

The statement is of `phyTransmit`, the change a schedule's `transmit` makes; of an acknowledged frame it bounds the sendings
from above only. How the PHY takes the frame, which tokens count, and what counts as failed retries are the model's reading (log
11, log 33). That the end latches whatever is masked (log 30), that with TXCC1 = TXCC2 = 0 the frame is consumed, recorded with
no pin and ends like any other (log 31), and that the Power register and the BIST and AUTO_PRE bits change nothing (log 34, log
35), are the model's choices. That the CRC is that CRC-32 is general knowledge (log 27). -/
def Obligations.TheWrittenFrameIsTransmitted : Prop :=
  ∀ (p : Phy) (payload : List Byte) (k : Nat), payload.length = 2 + 4 * k → k ≤ 7 →
    p.tx = [0x12, 0x12, 0x12, 0x13, BitVec.ofNat 8 (128 + payload.length)] ++ payload ++ [0xFF, 0x14, 0xFE, 0xA1] →
    (∀ retries, SendsFrame p (phyTransmit (.acked retries) p) payload true []) ∧
    ∀ softAcked : Bool,
      ((regRead p.regs 0x09).getLsbD 3 = false → SendsFrame p (phyTransmit (.failed softAcked) p) payload false []) ∧
      ((regRead p.regs 0x09).getLsbD 3 = true → (softAcked = true ∨ (regRead p.regs 0x09).getLsbD 4 = false) →
        SendsFrame p (phyTransmit (.failed softAcked) p) payload false [.softReset softAcked]) ∧
      ((regRead p.regs 0x09).getLsbD 3 = true → softAcked = false → (regRead p.regs 0x09).getLsbD 4 = true →
        SendsFrame p (phyTransmit (.failed softAcked) p) payload false [.softReset false, .hardReset])

/-! ## Errors -/

/-- R158, R178, R342, R354: an operand outside its range raises CallerError before any transaction, whatever the bus would
do: the state only takes the exception, with the reason and the operation's code.

R214, R219, R343: `BUILD_PDO` and `BUILD_VDM_UNSTRUCTURED` always take UnsupportedConstruction, with the subcode of what
was asked for, whatever their other operands are. -/
def Obligations.RefusedOperandsRaise : Prop :=
  (∀ s : State,
    (∀ pin : Byte, pin ≠ 1 → pin ≠ 2 →
      exec (.measureCc pin) s = .next (surface (.caller (.badPin pin.toNat) 0x05) s) ∧
      exec (.enableTxSwitch pin) s = .next (surface (.caller (.badPin pin.toNat) 0x0E) s)) ∧
    (∀ (code : Byte) (debug : Bool), 4 ≤ code.toNat →
      exec (.detectSource code debug) s = .next (surface (.caller (.badCode code.toNat) 0x08) s) ∧
      exec (.findCc (.source code debug)) s = .next (surface (.caller (.badCode code.toNat) 0x08) s) ∧
      exec (.setHostCurrent code) s = .next (surface (.caller (.badCode code.toNat) 0x0B) s)) ∧
    ∀ p : List Byte, (∀ k, k ≤ 7 → p.length ≠ 2 + 4 * k) →
      exec (.sendPacket p) s = .next (surface (.caller (.badLength p.length) 0x16) s)) ∧
  (∀ (s : State) (fields extra : List Byte) (svid : BitVec 16) (payload : BitVec 15),
    exec (.buildPdo .battery fields) s = .next (surface (.unsupported .pdoBattery 0x25) s) ∧
    exec (.buildPdo .variablePdo fields) s = .next (surface (.unsupported .pdoVariable 0x25) s) ∧
    exec (.buildPdo .pps fields) s = .next (surface (.unsupported .pdoPps 0x25) s) ∧
    exec (.buildVdmUnstructured svid payload extra) s = .next (surface (.unsupported .vdmUnstructured 0x29) s))

/-- What an error that surfaces in a transaction leaves (R341, R350): `Fault` with the address, direction, length and operation,
its event, no session field changed, and the primitives `ps` done before the failed transaction. -/
structure BusFails (s t : State) (addr : Byte) (dir : Dir) (n : Nat) (op : Byte) (ps : List Prim) : Prop where
  ctl : t.ctl = .fault (.bus addr dir n op)
  lastError : t.lastError = some (.bus addr dir n op)
  ses : t.ses = s.ses
  diag : Emits s t [.fault (.bus addr dir n op)]
  trace : Does s t (ps ++ [.busFailed addr dir n, .emit (.fault (.bus addr dir n op))])

/-- R341, R350, R353: a `SEND_PACKET` whose payload write fails stops there: the SOP tokens are in the TX FIFO without EOP,
the payload is there or not with the failed write's own effect (R63).

R63, R341, R353: a `READ_INT` whose second read fails has cleared InterruptA, has cleared InterruptB or not, and reads no
further. A read-modify-write (`SET_WAKE`) whose read fails writes nothing; one whose write fails has written the register or
not. -/
def Obligations.FailedPayloadWriteLeavesTheSopTokens : Prop :=
  (∀ (s : State) (p : List Byte) (k : Nat) (fate : BusFate), p.length = 2 + 4 * k → k ≤ 7 → TxRoom (p.length + 9) s →
    s.env = [{}, { bus := fate }] → fate ≠ .completes →
    ∃ t, exec (.sendPacket p) s = .next t ∧
      BusFails s t 0x43 .write p.length 0x16
        [.wr 0x43 [0x12, 0x12, 0x12, 0x13, BitVec.ofNat 8 (128 + p.length)]] ∧
      t.phy = { s.phy with tx := s.phy.tx ++ [0x12, 0x12, 0x12, 0x13, BitVec.ofNat 8 (128 + p.length)] ++
        (if fate = .failsDone then p else []) }) ∧
  (∀ (s : State) (fate : BusFate), s.env = [{}, { bus := fate }] → fate ≠ .completes →
    ∃ t, exec .readInt s = .next t ∧ BusFails s t 0x3F .read 1 0x13 [.rd 0x3E [s.phy.intA]] ∧
      t.phy = { s.phy with intA := 0, intB := if fate = .failsDone then 0 else s.phy.intB }) ∧
  (∀ (s : State) (fate : BusFate) (en : Bool) (w : Byte), fate ≠ .completes → Memory.wf s.phy.regs = true →
    w = (if en then regRead s.phy.regs 0x08 ||| 0x08 else regRead s.phy.regs 0x08 &&& 0xF7) →
    (s.env = [{ bus := fate }] →
      ∃ t, exec (.setWake en) s = .next t ∧ BusFails s t 0x08 .read 1 0x11 [] ∧ t.phy = s.phy) ∧
    (s.env = [{}, { bus := fate }] →
      ∃ t, exec (.setWake en) s = .next t ∧ BusFails s t 0x08 .write 1 0x11 [.rd 0x08 [regRead s.phy.regs 0x08]] ∧
        regRead t.phy.regs 0x08 = (if fate = .failsDone then w else regRead s.phy.regs 0x08) ∧ KeepsRegs [0x08] s t ∧
        KeepsFifos s t ∧ KeepsLatches s t))

/-! ## Frame Codec -/

/-- R209, R203, R110: `ENCODE_HEADER` answers two bytes whose fields are the operands, as the header decoder reads them, when
every operand is in its range; otherwise CallerError.

R220, R126, R221: `BUILD_REQUEST` of an encodable choice answers an RDO whose position is `index + 1`, whose two currents
are `current` and whose flag and reserved bits are 0; otherwise CallerError. -/
def Obligations.BuildHeadersAndRequests : Prop :=
  (∀ (s : State) (ext n id rev pr dr t : Byte),
    (ext.toNat ≤ 1 ∧ n.toNat ≤ 7 ∧ id.toNat ≤ 7 ∧ rev.toNat ≤ 3 ∧ pr.toNat ≤ 1 ∧ dr.toNat ≤ 1 ∧ t.toNat ≤ 31 →
      ∃ b0 b1 : Byte, exec (.encodeHeader ext n id rev pr dr t) s = .next (PureResult s (.bytes [b0, b1])) ∧
        decodeHeader .primary b0 b1 =
          ⟨ext.setWidth 1, n.setWidth 3, id.setWidth 3, pr.setWidth 1, some (pr.setWidth 1), rev.setWidth 2,
            dr.setWidth 1, t.setWidth 5⟩) ∧
    (¬ (ext.toNat ≤ 1 ∧ n.toNat ≤ 7 ∧ id.toNat ≤ 7 ∧ rev.toNat ≤ 3 ∧ pr.toNat ≤ 1 ∧ dr.toNat ≤ 1 ∧ t.toNat ≤ 31) →
      exec (.encodeHeader ext n id rev pr dr t) s = .next (surface (.caller .badHeaderField 0x21) s))) ∧
  (∀ (s : State) (index current : Word32),
    (index.toNat ≤ 6 ∧ current.toNat % 10 = 0 ∧ current.toNat ≤ 10230 →
      ∃ b0 b1 b2 b3 : Byte,
        exec (.buildRequest index current) s = .next (PureResult s (.bytes [b0, b1, b2, b3])) ∧
        parseRequest (wordOf b0 b1 b2 b3) = ⟨index.toNat + 1, current.toNat, current.toNat, 0⟩) ∧
    (¬ (index.toNat ≤ 6 ∧ current.toNat % 10 = 0 ∧ current.toNat ≤ 10230) →
      exec (.buildRequest index current) s = .next (surface (.caller .badRequest 0x2A) s)))

/-- R210, R111: `ENCODE_COMMAND` of a name its class's table holds at index `t` answers a header with no extended bit, the
object count, the ID, the revision, the roles and that type, and then the data.

R211: `ENCODE_COMMAND` raises CallerError for data that is no list of at most 7 objects, for a name the class's table does
not hold, and for a header field out of its range. Which reason it records is the model's (log 15). -/
def Obligations.EncodeCommandLooksTheNameUp : Prop :=
  (∀ (s : State) (name : MsgName) (d : List Byte) (t : BitVec 5) (id rev pr dr : Byte) (k : Nat),
    d.length = 4 * k → k ≤ 7 → name ≠ .reserved → id.toNat ≤ 7 → rev.toNat ≤ 3 → pr.toNat ≤ 1 → dr.toNat ≤ 1 →
    t.toNat < (if k = 0 then 24 else 16) → typeLookup (if k = 0 then .control else .data) t = name →
    ∃ b0 b1 : Byte, exec (.encodeCommand name d id rev pr dr) s = .next (PureResult s (.bytes ([b0, b1] ++ d))) ∧
      decodeHeader .primary b0 b1 =
        ⟨0, BitVec.ofNat 3 k, id.setWidth 3, pr.setWidth 1, some (pr.setWidth 1), rev.setWidth 2, dr.setWidth 1, t⟩) ∧
  (∀ (s : State) (name : MsgName) (d : List Byte) (id rev pr dr : Byte),
    (d.length % 4 ≠ 0 ∨ 28 < d.length ∨ name = .reserved ∨
      (∀ t : BitVec 5, t.toNat < (if d.length = 0 then 24 else 16) →
        typeLookup (if d.length = 0 then .control else .data) t ≠ name) ∨
      7 < id.toNat ∨ 3 < rev.toNat ∨ 1 < pr.toNat ∨ 1 < dr.toNat) →
    ∃ reason, exec (.encodeCommand name d id rev pr dr) s = .next (surface (.caller reason 0x22) s))

/-- R215: building is a right inverse of parsing on every accepted `(v, c, p, f)`, and a left inverse on every data object
whose type bits are 00.

R213, R215: `BUILD_FIXED_PDO` answers four bytes for operands in range, and `PARSE_PDO` of them gives the operands back;
otherwise CallerError (R213). -/
def Obligations.FixedPdoRoundTrips : Prop :=
  ((∀ v c p f : Nat, v % 50 = 0 → v ≤ 51150 → c % 10 = 0 → c ≤ 10230 → p ≤ 3 → f ≤ 255 →
    ∃ w, buildFixedPdo v c p f = .ok w ∧ parsePdo w = .fixed ⟨v, c, p, f⟩) ∧
  ∀ w : Word32, w.extractLsb' 30 2 = 0#2 →
    ∃ q, parsePdo w = .fixed q ∧
      buildFixedPdo q.voltage_mV q.maxCurrent_mA q.peakCurrentCode q.extraFlags = .ok w) ∧
  (∀ (s : State) (v c p f : Word32),
    (v.toNat % 50 = 0 ∧ v.toNat ≤ 51150 ∧ c.toNat % 10 = 0 ∧ c.toNat ≤ 10230 ∧ p.toNat ≤ 3 ∧ f.toNat ≤ 255 →
      ∃ b0 b1 b2 b3 : Byte,
        exec (.buildFixedPdo v c p f) s = .next (PureResult s (.bytes [b0, b1, b2, b3])) ∧
        exec (.parsePdo (wordOf b0 b1 b2 b3)) s =
          .next (PureResult s (.pdo (.fixed ⟨v.toNat, c.toNat, p.toNat, f.toNat⟩)))) ∧
    (¬ (v.toNat % 50 = 0 ∧ v.toNat ≤ 51150 ∧ c.toNat % 10 = 0 ∧ c.toNat ≤ 10230 ∧ p.toNat ≤ 3 ∧ f.toNat ≤ 255) →
      exec (.buildFixedPdo v c p f) s = .next (surface (.caller .badPdoField 0x24) s)))

/-- R117 to R121, R212: `PARSE_PDO` reads every data object by its type bits. -/
def ParsedPdo (w : Word32) : Pdo :=
  if w.extractLsb' 30 2 = 0#2 then
    .fixed ⟨(w.extractLsb' 10 10).toNat * 50, (w.extractLsb' 0 10).toNat * 10, (w.extractLsb' 20 2).toNat,
      (w.extractLsb' 22 8).toNat⟩
  else if w.extractLsb' 30 2 = 1#2 then
    .battery ((w.extractLsb' 20 10).toNat * 50) ((w.extractLsb' 10 10).toNat * 50) ((w.extractLsb' 0 10).toNat * 250)
  else if w.extractLsb' 30 2 = 2#2 then
    .variablePdo ((w.extractLsb' 20 10).toNat * 50) ((w.extractLsb' 10 10).toNat * 50) ((w.extractLsb' 0 10).toNat * 10)
  else
    .pps (w.extractLsb' 28 2).toNat (w.extractLsb' 27 1).toNat ((w.extractLsb' 17 8).toNat * 100)
      ((w.extractLsb' 8 8).toNat * 100) ((w.extractLsb' 0 7).toNat * 50)

/-- R122, R123, R217: what `PARSE_VDM_HEADER` reads, by bit 15. -/
def ParsedVdm (w : Word32) : VdmHeader :=
  if w.getLsbD 15 then
    .structured (w.extractLsb' 16 16) (w.extractLsb' 11 4) (w.extractLsb' 8 3) (w.extractLsb' 6 2) (w.extractLsb' 0 5)
  else .unstructured (w.extractLsb' 16 16) (w.extractLsb' 0 15)

/-- R126, R221: what `PARSE_REQUEST` reads. -/
def ParsedRequest (w : Word32) : Request :=
  ⟨(w.extractLsb' 28 4).toNat, (w.extractLsb' 10 10).toNat * 10, (w.extractLsb' 0 10).toNat * 10,
    (w.extractLsb' 20 8).toNat⟩

/-- R212, R216, R217, R221, R223: the parsing operations read every data object by its layout, refuse none, and change
nothing but the result. -/
def Obligations.ParsingReadsTheLayouts : Prop :=
  ∀ (s : State) (w : Word32) (ws : List Word32),
    exec (.parsePdo w) s = .next (PureResult s (.pdo (ParsedPdo w))) ∧
    exec (.parsePdoList ws) s = .next (PureResult s (.pdos (ws.map ParsedPdo))) ∧
    exec (.parseVdmHeader w) s = .next (PureResult s (.vdm (ParsedVdm w))) ∧
    exec (.parseRequest w) s = .next (PureResult s (.request (ParsedRequest w)))

/-- R114 to R116, R222: `TYPE_LOOKUP` has 24 Control and 16 Data entries in the order of the tables, and `Unknown(t)` beyond
them. -/
def Obligations.TypeLookupFollowsTheTables : Prop :=
  (∀ (s : State) (t : BitVec 5),
    (24 ≤ t.toNat → exec (.typeLookup .control t) s = .next (PureResult s (.name (.unknown t)))) ∧
    (16 ≤ t.toNat → exec (.typeLookup .data t) s = .next (PureResult s (.name (.unknown t)))) ∧
    exec (.typeLookup .control t) s = .next (PureResult s (.name (typeLookup .control t))) ∧
    exec (.typeLookup .data t) s = .next (PureResult s (.name (typeLookup .data t)))) ∧
  (List.range 24).map (fun t => typeLookup .control (BitVec.ofNat 5 t)) =
    [.reserved, .goodCrc, .gotoMin, .accept, .reject, .ping, .psRdy, .getSourceCap, .getSinkCap, .drSwap, .prSwap,
      .vconnSwap, .wait, .softReset, .dataReset, .dataResetComplete, .notSupported, .getSourceCapExtended, .getStatus,
      .frSwap, .getPpsStatus, .getCountryCodes, .getSinkCapExtended, .getSourceInfo] ∧
  (List.range 16).map (fun t => typeLookup .data (BitVec.ofNat 5 t)) =
    [.reserved, .sourceCapabilities, .request, .bist, .sinkCapabilities, .batteryStatus, .alert, .getCountryInfo,
      .enterUsb, .eprRequest, .eprMode, .sourceInfo, .revision, .reserved, .reserved, .vendorDefined]

/-- R218, R217: `BUILD_VDM_HEADER` of a structured record in range answers a header that `PARSE_VDM_HEADER` reads back, its
reserved bit 0, and then the payload; out of range it raises CallerError, and an unstructured record is
UnsupportedConstruction. -/
def Obligations.BuildVdmHeaderRoundTrips : Prop :=
  ∀ (s : State) (svid : Word32) (v p ct c : Byte) (extra : List Byte),
    (svid.toNat ≤ 0xFFFF ∧ v.toNat ≤ 15 ∧ p.toNat ≤ 7 ∧ ct.toNat ≤ 3 ∧ c.toNat ≤ 31 ∧ extra.length % 4 = 0 ∧
        extra.length ≤ 24 →
      ∃ b0 b1 b2 b3 : Byte,
        exec (.buildVdmHeader (.structured svid v p ct c) extra) s =
          .next (PureResult s (.bytes ([b0, b1, b2, b3] ++ extra))) ∧
        parseVdmHeader (wordOf b0 b1 b2 b3) =
          .structured (svid.setWidth 16) (v.setWidth 4) (p.setWidth 3) (ct.setWidth 2) (c.setWidth 5) ∧
        b0.getLsbD 5 = false) ∧
    (¬ (svid.toNat ≤ 0xFFFF ∧ v.toNat ≤ 15 ∧ p.toNat ≤ 7 ∧ ct.toNat ≤ 3 ∧ c.toNat ≤ 31 ∧ extra.length % 4 = 0 ∧
        extra.length ≤ 24) →
      exec (.buildVdmHeader (.structured svid v p ct c) extra) s = .next (surface (.caller .badVdmField 0x28) s)) ∧
    ∀ (sv : BitVec 16) (raw : BitVec 15),
      exec (.buildVdmHeader (.unstructured sv raw) extra) s =
        .next (surface (.unsupported .vdmUnstructured 0x28) s)

/-- R313: the reference policy answers the first Fixed PDO of exactly the voltage asked for, with its index and its maximum
current, and None when there is none; it changes nothing. -/
def Obligations.SelectPdoForVoltageTakesTheFirstMatch : Prop :=
  ∀ (s : State) (ws : List Word32) (volts : Word32),
    ∃ ans, exec (.selectPdoForVoltage ws volts) s = .next (PureResult s (.choice ans)) ∧
      (ans = none ↔ ∀ w ∈ ws, ∀ q, ParsedPdo w = .fixed q → q.voltage_mV ≠ volts.toNat * 1000) ∧
      ∀ i c, ans = some (i, c) →
        (∃ w q, ws[i]? = some w ∧ ParsedPdo w = .fixed q ∧ q.voltage_mV = volts.toNat * 1000 ∧ c = q.maxCurrent_mA) ∧
        ∀ (j : Nat) (w : Word32) (q : FixedPdo), j < i → ws[j]? = some w → ParsedPdo w = .fixed q →
          q.voltage_mV ≠ volts.toNat * 1000

/-! ## Receiving -/

/-- The message of a frame (R200, R203, R206, R207). -/
def FrameMessage (sop : Sop) (b0 b1 : Byte) (objs : List Word32) : Message where
  sop := sop
  hdr := decodeHeader sop b0 b1
  cls := if b0.extractLsb' 4 3 = 0#3 then .control else .data
  name := typeLookup (if b0.extractLsb' 4 3 = 0#3 then .control else .data) (b1.extractLsb' 0 5)
  dataObjects := objs
  vdm := if b0.extractLsb' 4 3 ≠ 0#3 ∧ b1.extractLsb' 0 5 = 15#5 then (objs.head?).map ParsedVdm else none

/-- R105, R200 to R207: `PARSE_MESSAGE` with a whole frame in the RX FIFO, behind any bytes that are neither a marker nor 0,
discards those bytes with one event each, reads the frame, returns its message and leaves exactly the bytes after its CRC. The
CRC bytes do not enter.

R106, R200: `RX_SOP` and `RX_SOP_PRIME` read the frame behind their marker, `RX_EMPTY_MARKER` is NotReady (log 3). -/
def Obligations.ParseMessageReadsOneFrame : Prop :=
  (∀ (s : State) (junk : List Byte) (sop : Sop) (b0 b1 : Byte) (objs : List Word32) (crc rest : List Byte),
    s.env = [] → (∀ b ∈ junk, b ≠ 0xE0 ∧ b ≠ 0xC0 ∧ b ≠ 0x00) →
    objs.length = (b0.extractLsb' 4 3).toNat → crc.length = 4 →
    s.phy.rx = junk ++ (if sop = .primary then 0xE0 else 0xC0) :: b0 :: b1 :: (objs.flatMap wordBytes ++ crc ++ rest) →
    ∃ t, exec .parseMessage s = .next t ∧ t.result = .message (FrameMessage sop b0 b1 objs) ∧ t.phy.rx = rest ∧
      t.phy.tx = s.phy.tx ∧ Emits s t (junk.map Event.discardedByte) ∧ t.scan = none ∧ t.ses = s.ses ∧
      t.ctl = s.ctl ∧ t.lastError = s.lastError ∧ KeepsRegs [] s t ∧ KeepsLatches s t) ∧
  (∀ (s : State) (sop : Sop) (b0 b1 : Byte) (objs : List Word32) (crc rest : List Byte), s.env = [] →
    (∃ t, exec .rxEmptyMarker s = .next t ∧ t.result = .notReady ∧ t.scan = none ∧ t.phy = s.phy ∧ t.ses = s.ses ∧
      t.diag = s.diag ∧ t.ctl = s.ctl) ∧
    (objs.length = (b0.extractLsb' 4 3).toNat → crc.length = 4 →
      s.phy.rx = b0 :: b1 :: (objs.flatMap wordBytes ++ crc ++ rest) →
      ∃ t, exec (if sop = .primary then .rxSop else .rxSopPrime) s = .next t ∧
        t.result = .message (FrameMessage sop b0 b1 objs) ∧ t.phy.rx = rest ∧ t.phy.tx = s.phy.tx ∧ t.scan = none ∧
        t.diag = s.diag ∧ t.ses = s.ses ∧ t.ctl = s.ctl ∧ KeepsRegs [] s t ∧ KeepsLatches s t))

/-- R201, R345, R64: with nothing but garbage before a 0 byte, or before the end of the FIFO and a padding byte of 0,
`PARSE_MESSAGE` answers NotReady: no error, one discarded-byte event for each garbage byte and none for the 0.

R201: the scan ends when the PHY pads with 0 or with a marker: with any schedule whose transactions complete, `PARSE_MESSAGE`
answers a message or NotReady; with another padding byte it answers one or is still under way.

R201, R64: the scan has no count limit: with such a padding byte and no marker and no 0 in the FIFO, `PARSE_MESSAGE` is never
done; two steps at a time, for as long as one looks, it reads that byte from the empty FIFO and reports it discarded. How much
of such a scan the instruction's own step does is the model's (log 18). -/
def Obligations.ParseMessageEndsNotReady : Prop :=
  (∀ (s : State) (junk rest : List Byte), s.env = [] → s.cfg.fifoUnderflow = 0 →
    (∀ b ∈ junk, b ≠ 0xE0 ∧ b ≠ 0xC0 ∧ b ≠ 0x00) → (s.phy.rx = junk ++ 0x00 :: rest ∨ (s.phy.rx = junk ∧ rest = [])) →
    ∃ t, exec .parseMessage s = .next t ∧ t.result = .notReady ∧ t.phy.rx = rest ∧
      Emits s t (junk.map Event.discardedByte) ∧ t.lastError = s.lastError ∧ t.ctl = s.ctl ∧ t.ses = s.ses ∧
      t.scan = none ∧ KeepsRegs [] s t ∧ KeepsLatches s t) ∧
  (∀ s : State, BusCompletes s →
    ∃ t, exec .parseMessage s = .next t ∧ t.ctl = s.ctl ∧ t.ses = s.ses ∧ t.lastError = s.lastError ∧ KeepsRegs [] s t ∧
      ((((∃ m, t.result = .message m) ∨ t.result = .notReady) ∧ t.scan = none) ∨
        (s.cfg.fifoUnderflow ≠ 0x00 ∧ s.cfg.fifoUnderflow ≠ 0xE0 ∧ s.cfg.fifoUnderflow ≠ 0xC0 ∧
          t.running = some .parseMessage ∧ t.result = .none))) ∧
  (∀ (s : State) (x : Byte), s.env = [] → s.port = none → (∀ e, s.ctl ≠ .fault e) → s.cfg.fifoUnderflow = x →
    (∀ b ∈ x :: s.phy.rx, b ≠ 0xE0 ∧ b ≠ 0xC0 ∧ b ≠ 0x00) →
    ∃ (t : State) (k : Nat), exec .parseMessage s = .next t ∧ t.running = some .parseMessage ∧ t.phy.rx = [] ∧
      Emits s t ((s.phy.rx ++ List.replicate k x).map Event.discardedByte) ∧
      ∀ n : Nat, ∃ u : State, Host.Core.run core (2 * n) t = .next u ∧ u.running = some .parseMessage ∧
        Does t u (List.replicate n [Prim.rd 0x43 [x], Prim.emit (.discardedByte x)]).flatten ∧
        Emits t u (List.replicate n (Event.discardedByte x)) ∧ u.phy = t.phy ∧ u.ses = s.ses ∧ u.ctl = s.ctl ∧
        u.lastError = s.lastError ∧ u.result = .none)

/-! ## The rows of received encodings

That the row of a received encoding, run by itself, is what the block does with that encoding is the model's (log 3). -/

/-- The Control row with its type index (R114, R116). -/
def ControlRow (b : MsgBits) (t : BitVec 5) : Instr := controlRow b t

/-- The Data row with its type index (R115, R116). -/
def DataRow (b : MsgBits) (n : BitVec 3) (t : BitVec 5) : Instr := dataRow b n t

/-- R284, R308, R310, R312: the header rows whose message has no reaction: on SOP′ every one; for the sink every name but
Source_Capabilities, Accept, PS_RDY, Vendor_Defined and Soft_Reset; for the source every name but Request and Soft_Reset. -/
def Ignored (role : Role) (sop : Sop) (cls : MsgClass) (t : BitVec 5) : Prop :=
  sop = .prime ∨
  (cls = .control ∧ t ≠ 13 ∧ (role = .sink → t ≠ 3 ∧ t ≠ 6)) ∨
  (cls = .data ∧ (role = .sink → t ≠ 1 ∧ t ≠ 15) ∧ (role = .source → t ≠ 2))

/-- R116, R284, R285, R308, R310, R311, R312: a header row whose message has no reaction consumes its data objects and its
CRC, reports the message once and changes nothing else, whatever its `extended` bit: every Control row and every Data row
in the roles and SOP kinds of `Ignored`. That a header row run by itself does the rest of the receive step is the model's
(log 3); the rows whose message has a reaction are in `HeaderRowsDispatchTheirMessage`. -/
def Obligations.IgnoredHeadersAreOnlyReported : Prop :=
  ∀ (s : State) (b : MsgBits) (t : BitVec 5) (objs : List Word32) (crc rest : List Byte), s.env = [] →
    objs.length ≤ 7 → crc.length = 4 → s.phy.rx = objs.flatMap wordBytes ++ crc ++ rest →
    Ignored s.cfg.role b.sop (if objs.length = 0 then .control else .data) t →
    ∃ u, exec (if objs.length = 0 then ControlRow b t else DataRow b (BitVec.ofNat 3 objs.length) t) s = .next u ∧
      u.result = .message (messageOf b t objs) ∧ Emits s u [.received (messageOf b t objs)] ∧
      u.phy.rx = rest ∧ u.phy.tx = s.phy.tx ∧ u.ses = s.ses ∧ u.ctl = s.ctl ∧ u.lastError = s.lastError ∧
      u.selects = s.selects ∧ u.validates = s.validates ∧ u.scan = none ∧ KeepsRegs [] s u ∧ KeepsLatches s u

/-- R110: the `HEADER` row decodes the header and does nothing else (log 3).

R117 to R123, R126: the PDO, VDM-header and RDO rows decode their data object and do nothing else (log 3). -/
def Obligations.DataObjectRowsDecode : Prop :=
  (∀ (s : State) (b : MsgBits) (n : BitVec 3) (t : BitVec 5),
    exec (.header b n t) s = .next (PureResult s (.header
      ⟨b.extended, n, b.messageId, b.bit0, if b.sop = .primary then some b.bit0 else none, b.revision, b.dataRole, t⟩))) ∧
  (∀ (s : State) (w : BitVec 30) (svid : BitVec 16) (payload : BitVec 15) (b : VdmBits) (ct : BitVec 2) (c : BitVec 5)
      (pos : BitVec 4) (flags : BitVec 6) (cur max : BitVec 10),
    exec (.pdoFixed w) s = .next (PureResult s (.pdo (ParsedPdo (0#2 ++ w)))) ∧
    exec (.pdoBattery w) s = .next (PureResult s (.pdo (ParsedPdo (1#2 ++ w)))) ∧
    exec (.pdoVariable w) s = .next (PureResult s (.pdo (ParsedPdo (2#2 ++ w)))) ∧
    exec (.pdoPps w) s = .next (PureResult s (.pdo (ParsedPdo (3#2 ++ w)))) ∧
    exec (.vdmStructured b ct c) s =
      .next (PureResult s (.vdm (.structured b.svid b.version b.objectPosition ct c))) ∧
    exec (.vdmUnstructured svid payload) s = .next (PureResult s (.vdm (.unstructured svid payload))) ∧
    exec (.rdoFixed pos flags cur max) s =
      .next (PureResult s (.request ⟨pos.toNat, cur.toNat * 10, max.toNat * 10, flags.toNat * 4⟩)))

/-! ## Message Sequencer -/

/-- R250, R251: `RESET_MSG_ID` sets UNSET; `NEXT_MSG_ID` takes UNSET to 0 and every ID to the next mod 8, and returns it; both
change nothing else.

R254, E2: after `RESET_MSG_ID` the `n`th `NEXT_MSG_ID` (from 0) returns `n mod 8`. -/
def Obligations.MessageIdCounts : Prop :=
  (∀ s : State,
    exec .resetMsgId s = .next { s with ses := { s.ses with msgId := none }, result := .unit } ∧
    ∃ id : BitVec 3,
      exec .nextMsgId s = .next { s with ses := { s.ses with msgId := some id }, result := .msgId id } ∧
      (s.ses.msgId = none → id = 0) ∧ ∀ k, s.ses.msgId = some k → id.toNat = (k.toNat + 1) % 8) ∧
  (∀ (s t : State) (n : Nat),
    runAll (.resetMsgId :: List.replicate (n + 1) .nextMsgId) s = .next t →
    t.result = .msgId (BitVec.ofNat 3 n) ∧ t.ses.msgId = some (BitVec.ofNat 3 n))

/-- The role bits a role sends (R252, D24). -/
def RoleBits (s : State) : Nat × Nat := if s.cfg.role = .sink then s.cfg.sinkRoleBits else s.cfg.sourceRoleBits

/-- The TX frame of a command with type `t` and data `d`, sent with message ID `id` (R101, R110, R252). -/
def CommandFrame (s : State) (id : BitVec 3) (t : BitVec 5) (d : List Byte) : List Byte :=
  [0x12, 0x12, 0x12, 0x13, BitVec.ofNat 8 (128 + 2 + d.length),
    BitVec.ofNat 8 (d.length / 4 * 16 + id.toNat * 2 + (RoleBits s).1),
    BitVec.ofNat 8 (s.cfg.rev * 64 + (RoleBits s).2 * 32 + t.toNat)] ++ d ++ [0xFF, 0x14, 0xFE, 0xA1]

/-- What sending a command leaves (R252): the next message ID, the frame in the TX FIFO, one log record; everything else of
the session, every register and every other FIFO byte as before. -/
structure Sends (s t : State) (type : BitVec 5) (d : List Byte) : Prop where
  id : t.ses.msgId = some (nextId s.ses.msgId)
  tx : t.phy.tx = s.phy.tx ++ CommandFrame s (nextId s.ses.msgId) type d
  log : t.ses.sentLog = s.ses.sentLog ++
    [⟨type, if d.length = 0 then .control else .data, nextId s.ses.msgId, d⟩]
  rx : t.phy.rx = s.phy.rx
  regs : KeepsRegs [] s t
  latches : KeepsLatches s t
  ctl : t.ctl = s.ctl
  lastError : t.lastError = s.lastError
  cfg : t.cfg = s.cfg
  pin : t.ses.ccPin = s.ses.ccPin
  counters : t.ses.advIters = s.ses.advIters ∧ t.ses.advRetries = s.ses.advRetries

/-- R252: `SEND_COMMAND` of a name its class's table holds at index `t` sends it with the next message ID, the role's header
bits and `REV`, and logs it.

R252, R211, R353: a `SEND_COMMAND` whose name the table does not hold still consumes the message ID, sends nothing, logs
nothing, and the block is in `Fault`. -/
def Obligations.SendCommandSendsAndLogs : Prop :=
  (∀ (s : State) (name : MsgName) (d : List Byte) (type : BitVec 5) (k : Nat), s.env = [] → checkConfig s.cfg = true →
    d.length = 4 * k → k ≤ 7 → TxRoom (d.length + 11) s → name ≠ .reserved →
    type.toNat < (if k = 0 then 24 else 16) → typeLookup (if k = 0 then .control else .data) type = name →
    ∃ t, exec (.sendCommand name d) s = .next t ∧ Sends s t type d ∧ t.result = .unit ∧ t.diag = s.diag ∧
      t.ses.sinkState = s.ses.sinkState ∧ t.ses.sourceState = s.ses.sourceState ∧
      t.ses.selectedProfile = s.ses.selectedProfile ∧ t.ses.profileAccepted = s.ses.profileAccepted) ∧
  (∀ (s : State) (name : MsgName) (d : List Byte) (k : Nat), d.length = 4 * k → k ≤ 7 →
    (name = .reserved ∨ ∀ t : BitVec 5, t.toNat < (if k = 0 then 24 else 16) →
      typeLookup (if k = 0 then .control else .data) t ≠ name) →
    ∃ t e, exec (.sendCommand name d) s = .next t ∧ t.ctl = .fault e ∧ t.lastError = some e ∧
      t.ses = { s.ses with msgId := some (nextId s.ses.msgId) } ∧ t.phy = s.phy ∧ Emits s t [.fault e])

/-- R253: `DRAIN_LOG` reports every record of the log in order, once, and empties it. -/
def Obligations.DrainLogReportsAndEmpties : Prop :=
  ∀ s : State, ∃ t, exec .drainLog s = .next t ∧ t.ses = { s.ses with sentLog := [] } ∧
    Emits s t (s.ses.sentLog.map Event.sent) ∧ t.phy = s.phy ∧ t.result = .unit ∧ KeepsBlock s t

/-! ## Negotiation: both roles -/

/-- R284, R308, R310, R311, R312: `DISPATCH` of a message without a reaction does nothing, whatever the flow state and the
`extended` bit.

R284: `DISPATCH` of a primary-SOP message with a reaction is that reaction: for the sink Source_Capabilities (Data 1),
Accept and PS_RDY (Control 3 and 6), Vendor_Defined (Data 15); for the source Request (Data 2); for both Soft_Reset (Control
13). -/
def Obligations.DispatchFollowsTheName : Prop :=
  (∀ (s : State) (m : MsgOperand), m.objects.length ≤ 7 →
    Ignored s.cfg.role m.bits.sop (if m.objects.length = 0 then .control else .data) m.messageType →
    exec (.dispatch m) s = .next (PureResult s .unit)) ∧
  (∀ (s : State) (b : MsgBits) (w : Word32) (ws : List Word32), b.sop = .primary → ws.length ≤ 6 →
    exec (.dispatch ⟨b, 13, []⟩) s = exec .onSoftReset s ∧
    (s.cfg.role = .sink →
      exec (.dispatch ⟨b, 1, w :: ws⟩) s = exec (.sinkOnSourceCaps ⟨b, w, ws⟩) s ∧
      exec (.dispatch ⟨b, 3, []⟩) s = exec (.sinkOnAccept false b) s ∧
      exec (.dispatch ⟨b, 6, []⟩) s = exec (.sinkOnAccept true b) s ∧
      exec (.dispatch ⟨b, 15, w :: ws⟩) s = exec (.sinkOnVdm ⟨b, w, ws⟩) s) ∧
    (s.cfg.role = .source → exec (.dispatch ⟨b, 2, w :: ws⟩) s = exec (.sourceOnRequest ⟨b, w, ws⟩) s))

/-- R309: `ON_SOFT_RESET` sets the counter to UNSET; with `SOFT_RESET_REPLY = Accept` it then sends Accept with ID 0, otherwise
it sends nothing and changes nothing else. -/
def Obligations.SoftResetResetsTheCounter : Prop :=
  ∀ s : State,
    (s.cfg.softResetReply = .silent →
      exec .onSoftReset s = .next { s with ses := { s.ses with msgId := none }, result := .unit }) ∧
    (s.cfg.softResetReply = .accept → s.env = [] → checkConfig s.cfg = true → TxRoom 11 s →
      ∃ t, exec .onSoftReset s = .next t ∧ Sends { s with ses := { s.ses with msgId := none } } t 3 [] ∧
        t.ses.msgId = some 0)

/-- R283: `RX_STEP` with an empty RX FIFO reads Status1 and does nothing else.

R201, R283, R285: `RX_STEP` with a frame in the RX FIFO, behind any garbage, is the parse, `DISPATCH` of the message and then
its report; where the dispatch ends in `Fault`, it is that `Fault` without a report.

R283, R345: `RX_STEP` with nothing but garbage before a 0 byte, which is NotReady, does nothing but report the garbage. -/
def Obligations.RxStepHandlesAtMostOneMessage : Prop :=
  (∀ s : State, busFate s = .completes → (envTick s).phy.rx = [] →
    ∃ t v, exec .rxStep s = .next t ∧ Does s t [.rd 0x41 [v]] ∧ t.phy = (envTick s).phy ∧
      t.result = .unit ∧ KeepsBlock s t ∧ t.ses = s.ses ∧ t.diag = s.diag) ∧
  (∀ (s v : State) (b : MsgBits) (t : BitVec 5) (objs : List Word32) (junk crc rest : List Byte) (status : Byte),
    s.env = [] → objs.length ≤ 7 → crc.length = 4 → s.scan = none → (∀ x ∈ junk, x ≠ 0xE0 ∧ x ≠ 0xC0 ∧ x ≠ 0x00) →
    s.phy.rx = junk ++ (if b.sop = .primary then 0xE0 else 0xC0) ::
      (headerBytes b (BitVec.ofNat 3 objs.length) t ++ objs.flatMap wordBytes ++ crc ++ rest) →
    status = status1Byte s.cfg s.phy →
    exec (.dispatch ⟨b, t, objs⟩) { s with
      phy := { s.phy with rx := rest }
      diag := s.diag ++ junk.map Event.discardedByte
      trace := s.trace ++ [Prim.rd 0x41 [status]] ++
        junk.flatMap (fun x => [Prim.rd 0x43 [x], Prim.emit (.discardedByte x)]) ++
        [Prim.rd 0x43 [if b.sop = .primary then 0xE0 else 0xC0],
          Prim.rd 0x43 (headerBytes b (BitVec.ofNat 3 objs.length) t)] ++
        (if objs.length = 0 then [] else [Prim.rd 0x43 (objs.flatMap wordBytes)]) ++ [Prim.rd 0x43 crc] } = .next v →
    exec .rxStep s =
      (if v.result = .unit then .next (setResult .unit (emitEvent (.received (messageOf b t objs)) v)) else .next v)) ∧
  (∀ (s : State) (junk rest : List Byte), s.env = [] → s.scan = none →
    (∀ x ∈ junk, x ≠ 0xE0 ∧ x ≠ 0xC0 ∧ x ≠ 0x00) → s.phy.rx = junk ++ 0x00 :: rest →
    ∃ t, exec .rxStep s = .next t ∧ t.phy = { s.phy with rx := rest } ∧ Emits s t (junk.map Event.discardedByte) ∧
      t.result = .unit ∧ KeepsBlock s t ∧ t.ses = s.ses)

/-- R286, R287: `INT_STEP` without CompChange clears the three latches, reports their bytes and each set condition in bit order
7 to 0, and answers Attached: nothing else happens, and bytes A and B lead to nothing.

R286, R288: `INT_STEP` with CompChange set reports the conditions and is then the detach check: the pin is re-detected and
stored, both FIFOs are flushed, and the answer is Detached exactly when no pin is found. That the comparator works whatever the
Power and Measure registers hold is the model's choice (log 34, log 35). -/
def Obligations.IntStepReportsThenDetects : Prop :=
  (∀ s : State, s.env = [] → s.phy.intI.getLsbD 5 = false →
    ∃ t, exec .intStep s = .next t ∧ t.result = .attached true ∧
      Emits s t ([Event.interrupts s.phy.intA s.phy.intB s.phy.intI] ++
        (SetConditions s.phy.intI).map Event.intCondition) ∧
      t.phy.intA = 0 ∧ t.phy.intB = 0 ∧ t.phy.intI = 0 ∧ intPin t.phy = false ∧ KeepsRegs [] s t ∧ KeepsFifos s t ∧
      KeepsBlock s t ∧ t.ses = s.ses) ∧
  (∀ s : State, s.env = [] → s.phy.intI.getLsbD 5 = true → Memory.wf s.phy.regs = true → RegsMapped s.phy.regs →
    checkConfig s.cfg = true →
    ∃ t pin, exec .intStep s = .next t ∧
      pin = StrategyPin (if s.cfg.role = .sink then .sink false else .source (BitVec.ofNat 8 s.cfg.hostCurrentCode) false)
        s.phy.cc1 s.phy.cc2 ∧
      t.ses = { s.ses with ccPin := pin } ∧ t.result = .attached (decide (pin ≠ .none)) ∧
      Emits s t ([Event.interrupts s.phy.intA s.phy.intB s.phy.intI] ++
        (SetConditions s.phy.intI).map Event.intCondition ++ (if pin = .none then [Event.detached] else [])) ∧
      t.phy.rx = [] ∧ t.phy.tx = [] ∧ t.phy.intA = 0 ∧ t.phy.intB = 0 ∧ t.phy.intI = 0 ∧ KeepsRegs [0x02, 0x03] s t ∧
      KeepsBlock s t)

/-- R288, R349: `DETACH_CHECK` re-detects with the role's strategy, stores the pin, flushes both FIFOs, and answers Detached
with the `Detached` event exactly when no pin is found; no error is recorded.

R286, R289: an iteration whose detach check finds no pin ends at once: no cadence step, no log drain, no sleep, no stop
sample; the `Detached` event is the last thing it does; `RUN_FLOW` then leads to setup.

That the comparator works whatever the Power and Measure registers hold is the model's choice (log 34, log 35). -/
def Obligations.DetachIsFoundAndEndsTheIteration : Prop :=
  (∀ s : State, BusCompletes s → LevelsSteady s → Memory.wf s.phy.regs = true → RegsMapped s.phy.regs →
    checkConfig s.cfg = true →
    ∃ t pin, exec .detachCheck s = .next t ∧
      pin = StrategyPin (if s.cfg.role = .sink then .sink false else .source (BitVec.ofNat 8 s.cfg.hostCurrentCode) false)
        s.phy.cc1 s.phy.cc2 ∧
      t.ses = { s.ses with ccPin := pin } ∧ t.result = .attached (decide (pin ≠ .none)) ∧
      Emits s t (if pin = .none then [Event.detached] else []) ∧ KeepsRegs [0x02, 0x03] s t ∧ KeepsBlock s t ∧
      (s.env = [] → t.phy.rx = [] ∧ t.phy.tx = [] ∧ KeepsLatches s t)) ∧
  (∀ s : State, s.env = [] → s.phy.rx = [] → intPin s.phy = true → s.phy.intI.getLsbD 5 = true →
    Memory.wf s.phy.regs = true → RegsMapped s.phy.regs → checkConfig s.cfg = true →
    StrategyPin (if s.cfg.role = .sink then .sink false else .source (BitVec.ofNat 8 s.cfg.hostCurrentCode) false)
      s.phy.cc1 s.phy.cc2 = .none →
    (∃ t, exec .pollIteration s = .next t ∧ t.result = .attached false ∧ t.ses = { s.ses with ccPin := .none } ∧
      t.stops = s.stops ∧ t.ctl = s.ctl ∧ ∃ ps, Does s t (ps ++ [.emit .detached])) ∧
    ∃ t, exec .runFlow s = .next t ∧ t.ctl = .setup s.cfg.role 0 ∧ t.ses = { s.ses with ccPin := .none } ∧
      t.stops = s.stops ∧ t.lastError = s.lastError ∧ ∃ ps, Does s t (ps ++ [.emit .detached]))

/-! ## Negotiation: the sink -/

/-- R290, R291: with a `selectPdo` answer it can encode, `SINK_SEND_REQUEST` sends the Request for position `index + 1` with no
wait, stores the choice and goes to RequestSent; `SINK_ON_SOURCE_CAPS` does so on the message's PDO list. -/
def Obligations.SinkRequestsTheChosenPdo : Prop :=
  ∀ (s : State) (b : MsgBits) (w : Word32) (ws : List Word32) (index current : Nat) (more : List (Option (Nat × Nat)))
      (i : Instr), s.env = [] → checkConfig s.cfg = true → TxRoom 15 s → ws.length ≤ 6 →
    s.selects = some (index, current) :: more → index < (w :: ws).length → current % 10 = 0 → current ≤ 10230 →
    (i = .sinkOnSourceCaps ⟨b, w, ws⟩ ∨ i = .sinkSendRequest (w :: ws)) →
    ∃ (t : State) (rdo : Word32), exec i s = .next t ∧ Sends s t 2 (wordBytes rdo) ∧
      ParsedRequest rdo = ⟨index + 1, current, current, 0⟩ ∧
      t.ses.selectedProfile = some (.sink index current) ∧ t.ses.sinkState = .requestSent ∧ t.selects = more ∧
      t.diag = s.diag ∧ t.ses.sourceState = s.ses.sourceState ∧ t.ses.profileAccepted = s.ses.profileAccepted ∧
      (∀ d, Prim.wait d ∉ t.trace.drop s.trace.length) ∧
      (t.trace.drop s.trace.length).head? = some (.ask (.selectPdo ((w :: ws).map ParsedPdo)))

/-- R291: the answer None sends nothing and changes no session field; an answer the RDO cannot encode, or beyond the list, is
CallerError before the message ID is consumed (R353).

R13, R291, R341: whatever the host answers (a free value when no answer is queued, log 6) and whatever the bus does,
`SINK_SEND_REQUEST` and `SINK_ON_SOURCE_CAPS` answer a next state. -/
def Obligations.SinkPolicyAnswersAreChecked : Prop :=
  (∀ (s : State) (ws : List Word32) (more : List (Option (Nat × Nat))),
    (s.selects = none :: more →
      ∃ t, exec (.sinkSendRequest ws) s = .next t ∧ t.ses = s.ses ∧ t.phy = s.phy ∧ t.selects = more ∧
        Emits s t [.noProfileSelected] ∧ t.ctl = s.ctl ∧ t.lastError = s.lastError) ∧
    ∀ index current : Nat, s.selects = some (index, current) :: more →
      (ws.length ≤ index ∨ 6 < index ∨ current % 10 ≠ 0 ∨ 10230 < current) →
      ∃ t, exec (.sinkSendRequest ws) s = .next t ∧ t.ses = s.ses ∧ t.phy = s.phy ∧
        t.ctl = .fault (.caller (.badPolicyAnswer index current) 0x46) ∧
        t.lastError = some (.caller (.badPolicyAnswer index current) 0x46)) ∧
  (∀ (s : State) (b : MsgBits) (w : Word32) (ws : List Word32),
    (∃ t, exec (.sinkSendRequest ws) s = .next t) ∧ ∃ t, exec (.sinkOnSourceCaps ⟨b, w, ws⟩) s = .next t)

/-- R292: `SINK_ON_ACCEPT` tells the host and goes to Powered, from every state, alike for Accept and PS_RDY. -/
def Obligations.AcceptPowersTheSink : Prop :=
  ∀ (s : State) (psRdy : Bool) (b : MsgBits),
    exec (.sinkOnAccept psRdy b) s = .next { s with
      ses := { s.ses with sinkState := .powered }
      trace := s.trace ++ [Prim.ask (.onAccept (messageOf b (if psRdy then 6#5 else 3#5) []))]
      result := .unit }

/-- The responder's answer to a command code (R9, R293, R294 to R299). -/
def AnswerTo (s : State) (command : BitVec 5) : Option (List Byte) :=
  if command = 1 then some s.cfg.vdmIdentity else if command = 2 then some s.cfg.vdmSvids
  else if command = 3 then some s.cfg.vdmModes else if command = 4 then some s.cfg.vdmEnter
  else if command = 16 then some s.cfg.vdmDpStatus else if command = 17 then some s.cfg.vdmDpConfig else none

/-- `i` hands the responder a structured VDM header with these fields: `SINK_ON_VDM` of a message that starts with it, the
six `VDM_…` operations for a REQ of their command (their operands: log 37), the command-type and the command rows (R293 to
R299; for the rows log 3). -/
def HandsVdm (v : VdmBits) (ct : BitVec 2) (command : BitVec 5) (i : Instr) : Prop :=
  match i with
  | .sinkOnVdm m => m.first = vdmWord v ct command ∧ m.others.length ≤ 6
  | .vdmDiscoverIdentity r => r = ⟨v.svid, v.version, v.objectPosition⟩ ∧ ct = 0 ∧ command = 1
  | .vdmDiscoverSvids r => r = ⟨v.svid, v.version, v.objectPosition⟩ ∧ ct = 0 ∧ command = 2
  | .vdmDiscoverModes r => r = ⟨v.svid, v.version, v.objectPosition⟩ ∧ ct = 0 ∧ command = 3
  | .vdmEnterMode r => r = ⟨v.svid, v.version, v.objectPosition⟩ ∧ ct = 0 ∧ command = 4
  | .vdmDpStatus r => r = ⟨v.svid, v.version, v.objectPosition⟩ ∧ ct = 0 ∧ command = 16
  | .vdmDpConfigure r => r = ⟨v.svid, v.version, v.objectPosition⟩ ∧ ct = 0 ∧ command = 17
  | .vdmCtReq v' c => v' = v ∧ ct = 0 ∧ c = command
  | .vdmCtAck v' c => v' = v ∧ ct = 1 ∧ c = command
  | .vdmCtNak v' c => v' = v ∧ ct = 2 ∧ c = command
  | .vdmCtBusy v' c => v' = v ∧ ct = 3 ∧ c = command
  | .vdmCmdDiscoverIdentity v' t => v' = v ∧ t = ct ∧ command = 1
  | .vdmCmdDiscoverSvids v' t => v' = v ∧ t = ct ∧ command = 2
  | .vdmCmdDiscoverModes v' t => v' = v ∧ t = ct ∧ command = 3
  | .vdmCmdEnterMode v' t => v' = v ∧ t = ct ∧ command = 4
  | .vdmCmdExitMode v' t => v' = v ∧ t = ct ∧ command = 5
  | .vdmCmdAttention v' t => v' = v ∧ t = ct ∧ command = 6
  | .vdmCmdDpStatusUpdate v' t => v' = v ∧ t = ct ∧ command = 16
  | .vdmCmdDpConfigure v' t => v' = v ∧ t = ct ∧ command = 17
  | _ => False

/-- R293 to R299, R124, R125: a sink answers a REQ of one of the six commands, on any SVID and in any flow state, with one
Vendor_Defined message: SVID, version, position and command echoed, the type forced to ACK, then the command's payload. All
instructions that hand the responder such a header do so: `SINK_ON_VDM`, the six `VDM_…` operations (whose operands are the
model's choice, log 37) and the command-type and command rows (log 3). -/
def Obligations.VdmRequestsAreAcknowledged : Prop :=
  ∀ (s : State) (v : VdmBits) (command : BitVec 5) (payload : List Byte) (i : Instr),
    s.env = [] → checkConfig s.cfg = true → s.cfg.role = .sink → TxRoom 39 s → AnswerTo s command = some payload →
    HandsVdm v 0 command i →
    ∃ (t : State) (h : Word32), exec i s = .next t ∧ Sends s t 15 (wordBytes h ++ payload) ∧
      ParsedVdm h = .structured v.svid v.version v.objectPosition 1 command ∧ h.getLsbD 5 = false ∧
      t.diag = s.diag ∧ t.ses.sinkState = s.ses.sinkState ∧ t.ses.sourceState = s.ses.sourceState ∧
      t.ses.selectedProfile = s.ses.selectedProfile ∧ t.ses.profileAccepted = s.ses.profileAccepted

/-- R293, R124, R125: a sink answers no ACK, NAK or BUSY, no command other than the six and no unstructured VDM: nothing is
sent and nothing changes.

R308: a source answers no VDM: the command-type and command rows only decode the header (log 3). -/
def Obligations.OtherVdmsAreNotAnswered : Prop :=
  (∀ (s : State) (b : MsgBits) (v : VdmBits) (ct : BitVec 2) (command : BitVec 5) (ws : List Word32) (i : Instr) (w : Word32),
    s.cfg.role = .sink →
    ((ct ≠ 0 ∨ AnswerTo s command = none) → HandsVdm v ct command i →
      ∃ t, exec i s = .next t ∧ t = { s with result := t.result }) ∧
    (w.getLsbD 15 = false → exec (.sinkOnVdm ⟨b, w, ws⟩) s = .next (PureResult s .unit))) ∧
  (∀ (s : State) (v : VdmBits) (ct : BitVec 2) (command : BitVec 5) (i : Instr),
    s.cfg.role = .source → HandsVdm v ct command i → (encode i).1 ≠ .op →
    exec i s = .next (PureResult s (.vdm (.structured v.svid v.version v.objectPosition ct command))))

/-! ## Negotiation: the source -/

/-- R300: `SOURCE_ADVERTISE` sends the advertised Fixed PDOs, in order, as one Source_Capabilities with the next message ID, and
changes no flow state.

R307: `ADV_CADENCE` does nothing once a profile is accepted or the cap is reached; otherwise it counts an iteration, and at
the period it starts again, counts a re-send and advertises (the session and PHY effects of `SOURCE_ADVERTISE`). -/
def Obligations.AdvertisementAndItsCadence : Prop :=
  (∀ s : State, s.env = [] → checkConfig s.cfg = true → s.cfg.role = .source → TxRoom 39 s →
    ∃ (t : State) (ws : List Word32), exec .sourceAdvertise s = .next t ∧ Sends s t 1 (ws.flatMap wordBytes) ∧
      ws.map ParsedPdo = s.cfg.advertisedPdos.map Pdo.fixed ∧ t.result = .unit ∧ t.diag = s.diag ∧
      t.ses.sourceState = s.ses.sourceState ∧ t.ses.sinkState = s.ses.sinkState ∧
      t.ses.selectedProfile = s.ses.selectedProfile ∧ t.ses.profileAccepted = s.ses.profileAccepted) ∧
  (∀ s : State,
    ((s.ses.profileAccepted = true ∨ s.cfg.advMaxRetries ≤ s.ses.advRetries) →
      exec .advCadence s = .next (PureResult s .unit)) ∧
    (s.ses.profileAccepted = false → s.ses.advRetries < s.cfg.advMaxRetries →
      (s.ses.advIters + 1 ≠ s.cfg.advPeriodIters →
        exec .advCadence s = .next { s with
          ses := { s.ses with advIters := s.ses.advIters + 1 }
          result := .unit }) ∧
      (s.ses.advIters + 1 = s.cfg.advPeriodIters →
        exec .advCadence s = exec .sourceAdvertise { s with
          ses := { s.ses with advIters := 0, advRetries := s.ses.advRetries + 1 } })))

/-- R303: `SOURCE_ACCEPT` sends Accept and records the profile.

R304: `SOURCE_PS_RDY` asks the host to switch, waits `PS_RDY_SETTLE`, sends PS_RDY and goes to Powered, in this order. -/
def Obligations.AcceptThenPsRdy : Prop :=
  (∀ (s : State) (index : BitVec 3) (profile : BitVec 30), s.env = [] → checkConfig s.cfg = true → TxRoom 11 s →
    ∃ t, exec (.sourceAccept index profile) s = .next t ∧ Sends s t 3 [] ∧ t.ses.profileAccepted = true ∧
      t.ses.selectedProfile = some (.source index.toNat (profileOf profile)) ∧ t.ses.sourceState = .accepted ∧
      t.diag = s.diag ∧ t.ses.sinkState = s.ses.sinkState) ∧
  (∀ (s : State) (profile : BitVec 30) (m : DataOperand), s.env = [] → checkConfig s.cfg = true → TxRoom 11 s →
    ∃ t, exec (.sourcePsRdy profile m) s = .next t ∧ Sends s t 6 [] ∧ t.ses.sourceState = .powered ∧
      (t.trace.drop s.trace.length).take 2 =
        [.ask (.switchToProfile (profileOf profile) (messageOf m.bits 2 (m.first :: m.others))), .wait s.cfg.psRdySettle] ∧
      t.diag = s.diag ∧ t.ses.sinkState = s.ses.sinkState ∧ t.ses.selectedProfile = s.ses.selectedProfile ∧
      t.ses.profileAccepted = s.ses.profileAccepted)

/-- What a rejection leaves (R305): the host told to power off, one event, no profile, the source back in AdvertisementSent;
nothing is sent. -/
structure Rejects (s t : State) (pos : Nat) : Prop where
  ses : t.ses = { s.ses with selectedProfile := none, sourceState := .advertisementSent }
  diag : Emits s t [.policyRejected pos]
  asked : Prim.ask .powerOff ∈ t.trace.drop s.trace.length
  phy : t.phy = s.phy
  ctl : t.ctl = s.ctl
  lastError : t.lastError = s.lastError

/-- R305, R347: `SOURCE_REJECT` sends nothing: no Reject message, no other transaction.

R301, R302, R306: a Request is handled in every source state. Position 0 or beyond the advertised list, and a profile the
host turns down, are rejected; the host is not asked in the first case. An accepted Request gets Accept and then PS_RDY with
the next two message IDs, the profile recorded and the source Powered. Only the first data object is read. -/
def Obligations.SourceHandlesARequest : Prop :=
  (∀ (s : State) (pos : BitVec 4),
    ∃ t, exec (.sourceReject pos) s = .next t ∧ Rejects s t pos.toNat ∧
      Does s t [.ask .powerOff, .emit (.policyRejected pos.toNat)] ∧ KeepsBlock s t) ∧
  (∀ (s : State) (m : DataOperand) (pos : Nat), pos = (m.first.extractLsb' 28 4).toNat →
    ((pos = 0 ∨ s.cfg.advertisedPdos.length < pos) →
      ∃ t, exec (.sourceOnRequest m) s = .next t ∧ Rejects s t pos ∧ t.validates = s.validates) ∧
    ∀ (profile : FixedPdo) (more : List Bool), 0 < pos → s.cfg.advertisedPdos[pos - 1]? = some profile →
      (s.validates = false :: more →
        ∃ t, exec (.sourceOnRequest m) s = .next t ∧ Rejects s t pos ∧ t.validates = more) ∧
      (s.validates = true :: more → s.env = [] → checkConfig s.cfg = true → TxRoom 22 s →
        ∃ t, exec (.sourceOnRequest m) s = .next t ∧ t.ses.sourceState = .powered ∧ t.ses.profileAccepted = true ∧
          t.ses.selectedProfile = some (.source (pos - 1) profile) ∧ t.validates = more ∧
          t.ses.msgId = some (nextId (some (nextId s.ses.msgId))) ∧
          t.phy.tx = s.phy.tx ++ CommandFrame s (nextId s.ses.msgId) 3 [] ++
            CommandFrame s (nextId (some (nextId s.ses.msgId))) 6 [] ∧
          t.phy.rx = s.phy.rx ∧ KeepsRegs [] s t ∧ t.ctl = s.ctl ∧ t.diag = s.diag))

/-! ## The rows of received headers -/

/-- What a header row that ran leaves besides its reaction (R204, R205, R285): the message as its result, reported last and
once, no codec state, no error. -/
structure Reports (s u : State) (m : Message) : Prop where
  result : u.result = .message m
  diag : ∃ es, Emits s u (es ++ [.received m])
  trace : ∃ ps, Does s u (ps ++ [.emit (.received m)])
  scan : u.scan = none
  ctl : u.ctl = s.ctl
  lastError : u.lastError = s.lastError

/-- R283, R284, R285: any header row reads its data objects and CRC, and is then `DISPATCH` of that message followed by its
report: where the dispatch completes, with the same end; where it ends in `Fault`, in that `Fault` without a report.

R290 to R293, R301, R309: the rows with a reaction complete it. For a sink Accept and PS_RDY tell the host and power it,
Source_Capabilities sends the Request the host chose, a VDM request of an answered command is acknowledged and another VDM
only reported; for a source a Request is accepted or rejected as the host says; for both Soft_Reset resets the counter and
replies or not.

That a header row run by itself does the rest of the receive step is the model's (log 3). -/
def Obligations.HeaderRowsDispatchTheirMessage : Prop :=
  (∀ (s v : State) (b : MsgBits) (t : BitVec 5) (objs : List Word32) (crc rest : List Byte), s.env = [] →
    objs.length ≤ 7 → crc.length = 4 → s.phy.rx = objs.flatMap wordBytes ++ crc ++ rest → s.scan = none →
    exec (.dispatch ⟨b, t, objs⟩) { s with
      phy := { s.phy with rx := rest }
      trace := s.trace ++ (if objs.length = 0 then [] else [Prim.rd 0x43 (objs.flatMap wordBytes)]) ++ [Prim.rd 0x43 crc] } =
      .next v →
    exec (if objs.length = 0 then ControlRow b t else DataRow b (BitVec.ofNat 3 objs.length) t) s =
      (if v.result = .unit then
        .next (setResult (.message (messageOf b t objs)) (emitEvent (.received (messageOf b t objs)) v))
      else .next v)) ∧
  (∀ (s r : State) (b : MsgBits) (crc rest : List Byte), s.env = [] → b.sop = .primary → crc.length = 4 →
    s.phy.rx = crc ++ rest → r = { s with phy := { s.phy with rx := rest } } →
    (s.cfg.role = .sink → ∀ psRdy : Bool,
      ∃ u, exec (if psRdy then .ctrlPsRdy b else .ctrlAccept b) s = .next u ∧
        Reports s u (messageOf b (if psRdy then 6 else 3) []) ∧ u.ses = { s.ses with sinkState := .powered } ∧
        Does s u [.rd 0x43 crc, .ask (.onAccept (messageOf b (if psRdy then 6 else 3) [])),
          .emit (.received (messageOf b (if psRdy then 6 else 3) []))] ∧ u.phy = r.phy) ∧
    (s.cfg.softResetReply = .silent →
      ∃ u, exec (.ctrlSoftReset b) s = .next u ∧ Reports s u (messageOf b 13 []) ∧
        u.ses = { s.ses with msgId := none } ∧ u.phy = r.phy) ∧
    (s.cfg.softResetReply = .accept → checkConfig s.cfg = true → TxRoom 11 s →
      ∃ u, exec (.ctrlSoftReset b) s = .next u ∧ Reports s u (messageOf b 13 []) ∧
        Sends { r with ses := { s.ses with msgId := none } } u 3 [] ∧ u.ses.msgId = some 0)) ∧
  (∀ (s r : State) (b : MsgBits) (w : Word32) (ws : List Word32) (n : BitVec 3) (crc rest : List Byte), s.env = [] →
    b.sop = .primary → ws.length ≤ 6 → n = BitVec.ofNat 3 (ws.length + 1) → crc.length = 4 →
    s.phy.rx = (w :: ws).flatMap wordBytes ++ crc ++ rest → r = { s with phy := { s.phy with rx := rest } } →
    (∀ (index current : Nat) (more : List (Option (Nat × Nat))), s.cfg.role = .sink → checkConfig s.cfg = true →
      TxRoom 15 s → s.selects = some (index, current) :: more → index < (w :: ws).length → current % 10 = 0 →
      current ≤ 10230 →
      ∃ (u : State) (rdo : Word32), exec (.dataSourceCapabilities b n) s = .next u ∧ Reports s u (messageOf b 1 (w :: ws)) ∧
        Sends r u 2 (wordBytes rdo) ∧ ParsedRequest rdo = ⟨index + 1, current, current, 0⟩ ∧
        u.ses.selectedProfile = some (.sink index current) ∧ u.ses.sinkState = .requestSent ∧ u.selects = more) ∧
    (∀ (v : VdmBits) (ct : BitVec 2) (command : BitVec 5), s.cfg.role = .sink → w = vdmWord v ct command →
      ((ct ≠ 0 ∨ AnswerTo s command = none) →
        ∃ u, exec (.dataVendorDefined b n) s = .next u ∧ Reports s u (messageOf b 15 (w :: ws)) ∧ u.ses = s.ses ∧
          u.phy = r.phy) ∧
      ∀ payload, ct = 0 → AnswerTo s command = some payload → checkConfig s.cfg = true → TxRoom 39 s →
        ∃ (u : State) (h : Word32), exec (.dataVendorDefined b n) s = .next u ∧
          Reports s u (messageOf b 15 (w :: ws)) ∧ Sends r u 15 (wordBytes h ++ payload) ∧
          ParsedVdm h = .structured v.svid v.version v.objectPosition 1 command) ∧
    (∀ (pos : Nat), s.cfg.role = .source → pos = (w.extractLsb' 28 4).toNat →
      ((pos = 0 ∨ s.cfg.advertisedPdos.length < pos) →
        ∃ u, exec (.dataRequest b n) s = .next u ∧ Reports s u (messageOf b 2 (w :: ws)) ∧ u.phy = r.phy ∧
          u.ses = { s.ses with selectedProfile := none, sourceState := .advertisementSent }) ∧
      ∀ (profile : FixedPdo) (more : List Bool), 0 < pos → s.cfg.advertisedPdos[pos - 1]? = some profile →
        (s.validates = false :: more →
          ∃ u, exec (.dataRequest b n) s = .next u ∧ Reports s u (messageOf b 2 (w :: ws)) ∧ u.phy = r.phy ∧
            u.ses = { s.ses with selectedProfile := none, sourceState := .advertisementSent } ∧ u.validates = more) ∧
        (s.validates = true :: more → checkConfig s.cfg = true → TxRoom 22 s →
          ∃ u, exec (.dataRequest b n) s = .next u ∧ Reports s u (messageOf b 2 (w :: ws)) ∧
            u.ses.sourceState = .powered ∧ u.ses.profileAccepted = true ∧
            u.ses.selectedProfile = some (.source (pos - 1) profile) ∧ u.validates = more ∧
            u.phy.tx = s.phy.tx ++ CommandFrame s (nextId s.ses.msgId) 3 [] ++
              CommandFrame s (nextId (some (nextId s.ses.msgId))) 6 [] ∧ u.phy.rx = rest ∧ KeepsRegs [] s u)))

/-! ## The iteration and the supervisor -/

/-- R282: an iteration with an empty RX FIFO and the pin deasserted, for a sink, or a source whose cadence is over: one
Status1 read, the log reported and emptied, the sleep, one sample of `Stop()`; then Attached when it is false. That
`POLL_ITERATION` invoked by itself ends in `Pause(0)` when it is true is the model's choice (log 19): R348 and R391 have the
cancellation caught at the top level, in `RUN_FLOW`.

R391, R348: on a quiet PHY the flow goes on when `Stop()` is false and to `Pause(0)` when it is true. That `RUN_FLOW` is one
turn of its loop is the model's choice (log 19). -/
def Obligations.QuietTurnsGoOnOrPause : Prop :=
  (∀ s : State, s.env = [] → s.phy.rx = [] → intPin s.phy = false →
    (s.cfg.role = .sink ∨ s.ses.profileAccepted = true ∨ s.cfg.advMaxRetries ≤ s.ses.advRetries) →
    ∃ t, exec .pollIteration s = .next t ∧ t.ses = { s.ses with sentLog := [] } ∧
      Emits s t (s.ses.sentLog.map Event.sent) ∧ KeepsRegs [] s t ∧ KeepsFifos s t ∧ KeepsLatches s t ∧
      t.stops = s.stops.tail ∧ t.lastError = s.lastError ∧
      Does s t ([Prim.rd 0x41 [status1Byte s.cfg s.phy]] ++
        s.ses.sentLog.map (fun r => Prim.emit (.sent r)) ++ [Prim.wait s.cfg.pollSleep]) ∧
      (s.stops.headD false = false → t.result = .attached true ∧ t.ctl = s.ctl) ∧
      (s.stops.headD false = true → t.result = .none ∧ t.ctl = .pause 0)) ∧
  (∀ s : State, s.env = [] → s.phy.rx = [] → intPin s.phy = false → s.cfg.role = .sink →
    ∃ t, exec .runFlow s = .next t ∧ t.ses = { s.ses with sentLog := [] } ∧ KeepsRegs [] s t ∧ KeepsFifos s t ∧
      (s.stops.headD false = false → t.ctl = .flow .sink 0) ∧ (s.stops.headD false = true → t.ctl = .pause 0))

/-- R352: cancellation recovery reports, waits `CANCEL_PAUSE` and goes to step 0 of setup; no bus transaction, the session and
every PHY register, FIFO and latch as they were. -/
def Obligations.CancelRecoverPausesThenSetsUp : Prop :=
  ∀ s : State,
    ∃ t, exec .cancelRecover s = .next t ∧ t.ctl = .setup s.cfg.role 0 ∧ Emits s t [.cancelled] ∧
      Does s t [.emit .cancelled, .wait s.cfg.cancelPause] ∧ t.ses = s.ses ∧ t.phy.regs = s.phy.regs ∧
      KeepsFifos s t ∧ KeepsLatches s t ∧ t.lastError = s.lastError ∧ t.stops = s.stops

/-- R383, R384, R386: sink `SETUP` ends in the flow with a new session but for the detected pin, the message ID UNSET, both
FIFOs empty and every register at the setup's value, whatever it found in the PHY. R43: nothing goes on the cable, no Hard
Reset either. -/
def Obligations.SinkSetupConfiguresThePhy : Prop :=
  ∀ s : State, s.env = [] → checkConfig s.cfg = true → s.cfg.role = .sink →
    ∃ t pin, exec .setup s = .next t ∧ t.ctl = .flow .sink 0 ∧ t.lastError = s.lastError ∧
      pin = StrategyPin (.sink false) s.phy.cc1 s.phy.cc2 ∧ t.ses = { Session.fresh with ccPin := pin } ∧
      t.phy.rx = [] ∧ t.phy.tx = [] ∧ t.phy.intA = 0 ∧ t.phy.intB = 0 ∧ t.phy.intI = 0 ∧
      regRead t.phy.regs 0x0B = 0x0F ∧ regRead t.phy.regs 0x06 = 0x04 ∧
      regRead t.phy.regs 0x0A = 0 ∧ regRead t.phy.regs 0x0E = 0 ∧ regRead t.phy.regs 0x0F = 0 ∧
      regRead t.phy.regs 0x09 = BitVec.ofNat 8 s.cfg.phyControl3.val ∧ t.phy.wire = s.phy.wire ∧
      regRead t.phy.regs 0x07 = (if s.cfg.enableSopPrime then 0x01 else 0x00) ∧
      (regRead t.phy.regs 0x02 = if pin = .cc1 ∨ (pin = .none ∧ s.cfg.defaultPin = .cc1) then 0x07 else 0x0B) ∧
      regRead t.phy.regs 0x03 = BitVec.ofNat 8 (s.cfg.sinkRoleBits.1 * 128 + s.cfg.rev * 32 + s.cfg.sinkRoleBits.2 * 16 + 4 +
        (if pin = .cc1 ∨ (pin = .none ∧ s.cfg.defaultPin = .cc1) then 1 else 2)) ∧
      regRead t.phy.regs 0x04 = 0x31 ∧ regRead t.phy.regs 0x08 = 0x02

/-- R385, R300: source `SETUP` ends in the flow with the first advertisement, message ID 0, alone in the TX FIFO and in the log,
the pull-ups on and the host current set. -/
def Obligations.SourceSetupSendsTheFirstAdvertisement : Prop :=
  ∀ s : State, s.env = [] → checkConfig s.cfg = true → s.cfg.role = .source →
    ∃ (t : State) (pin : CCPin) (ws : List Word32), exec .setup s = .next t ∧ t.ctl = .flow .source 0 ∧
      pin = StrategyPin (.source (BitVec.ofNat 8 s.cfg.hostCurrentCode) false) s.phy.cc1 s.phy.cc2 ∧
      t.ses = { Session.fresh with
        ccPin := pin, msgId := some 0, sentLog := [⟨1, .data, 0, ws.flatMap wordBytes⟩] } ∧
      ws.map ParsedPdo = s.cfg.advertisedPdos.map Pdo.fixed ∧ t.phy.tx = CommandFrame s 0 1 (ws.flatMap wordBytes) ∧
      t.phy.rx = [] ∧ regRead t.phy.regs 0x06 = BitVec.ofNat 8 s.cfg.hostCurrentCode <<< 2 ∧
      (regRead t.phy.regs 0x02 = if pin = .cc1 ∨ (pin = .none ∧ s.cfg.defaultPin = .cc1) then 0xC4 else 0xC8)

/-- R314: the end-to-end scenario. A sink whose host answers `selectPdo` with `SELECT_PDO_FOR_VOLTAGE pdos, 5`, that is `(0,
1500)`, and that finds the RX frame `E0 11 A1 96 90 01 00` and 4 CRC bytes as its first message of the session, sends the
Request of the vector in the same iteration and is in RequestSent. -/
def Obligations.EndToEndSinkScenario : Prop :=
  ∀ (s : State) (crc : List Byte), s.env = [] → checkConfig s.cfg = true → s.cfg.role = .sink → s.cfg.rev = 2 →
    s.cfg.sinkRoleBits = (0, 0) → TxRoom 15 s → intPin s.phy = false → s.ses.msgId = none →
    s.phy.rx = [0xE0, 0x11, 0xA1, 0x96, 0x90, 0x01, 0x00] ++ crc → crc.length = 4 →
    s.selects = [selectPdoForVoltage [.fixed ⟨5000, 1500, 0, 0⟩] 5] → s.stops.headD false = false →
    ∃ t, exec .pollIteration s = .next t ∧ t.ses.sinkState = .requestSent ∧
      t.phy.tx = s.phy.tx ++
        [0x12, 0x12, 0x12, 0x13, 0x86, 0x10, 0x82, 0x96, 0x58, 0x02, 0x10, 0xFF, 0x14, 0xFE, 0xA1] ∧
      t.ses.msgId = some 0 ∧ t.ses.selectedProfile = some (.sink 0 1500) ∧ t.result = .attached true ∧
      t.phy.rx = [] ∧ t.selects = [] ∧ KeepsRegs [] s t

/-! ## The PHY between two transactions -/

/-- R80, R82: between two transactions the PHY changes its FIFOs, latches, status and levels, any number of them in order, and
no register and nothing of the block; at the end of the schedule nothing changes.

R67: bytes of any kind are appended to the RX FIFO, and a frame with a valid CRC as its marker, header, data and CRC if the PHY
is enabled for its SOP kind; with AUTO_CRC the PHY answers it with GoodCRC, with the role and revision bits of Switches1, and
latches I_GCRCSENT (R37, R51, R256).

R50, R51, R52: interrupt bits latch, and InterruptB's bits 7:1 stay 0.

The model's own are: that the changes stand in a schedule (log 5), that a bit latches whatever is masked (log 30), that with
TXCC1 = TXCC2 = 0 the answer is recorded with neither pin (log 31), that GoodCRC carries the ID of the frame it answers (log 32),
that the receiver works whatever the Power register and the BIST bits hold (log 34, log 35), and that a reception sets no status
bit by itself (log 38). -/
def Obligations.PhyChangesBetweenTransactions : Prop :=
  (∀ s : State, KeepsRegs [] s (envTick s) ∧ KeepsBlock s (envTick s) ∧ (envTick s).ses = s.ses ∧
    Does s (envTick s) [] ∧ Emits s (envTick s) [] ∧ (envTick s).env = s.env.tail ∧
    (envTick s).phy.tx.length ≤ s.phy.tx.length ∧ (s.env = [] → envTick s = s)) ∧
  (∀ (s : State) (as bs : List PhyAct) (fate : BusFate) (rest : List EnvStep), s.env = ⟨as ++ bs, fate⟩ :: rest →
    envTick s = envTick { envTick { s with env := [⟨as, fate⟩] } with env := ⟨bs, fate⟩ :: rest }) ∧
  (∀ (s : State) (bs : List Byte) (fate : BusFate) (rest : List EnvStep), s.env = ⟨[.bytes bs], fate⟩ :: rest →
    s.phy.rx.length + bs.length ≤ s.cfg.rxFifoBytes → (envTick s).phy = { s.phy with rx := s.phy.rx ++ bs }) ∧
  (∀ (s : State) (a b i : Byte) (fate : BusFate) (rest : List EnvStep), s.env = ⟨[.latch a b i], fate⟩ :: rest →
    (envTick s).phy = { s.phy with
      intA := s.phy.intA ||| a, intB := s.phy.intB ||| (b &&& 0x01), intI := s.phy.intI ||| i }) ∧
  (∀ (s : State) (f : RxFrame) (fate : BusFate) (rest : List EnvStep) (sw : Byte), s.env = ⟨[.receive f], fate⟩ :: rest →
    s.phy.rx.length + f.data.length + 7 ≤ s.cfg.rxFifoBytes → sw = regRead s.phy.regs 0x03 →
    (f.sop = .prime → (regRead s.phy.regs 0x07).getLsbD 0 = false → (envTick s).phy = s.phy) ∧
    ((f.sop = .primary ∨ (regRead s.phy.regs 0x07).getLsbD 0 = true) →
      (∃ crc : List Byte, crc.length = 4 ∧ (envTick s).phy.rx =
        s.phy.rx ++ [if f.sop = .primary then 0xE0 else 0xC0, f.byte0, f.byte1] ++ f.data ++ crc) ∧
      (sw.getLsbD 2 = false → (envTick s).phy.wire = s.phy.wire ∧ (envTick s).phy.intB = s.phy.intB) ∧
      (sw.getLsbD 2 = true → (envTick s).phy.intB = s.phy.intB ||| 0x01 ∧
        ∃ h0 h1 : Byte, (envTick s).phy.wire =
            s.phy.wire ++ [.goodCrc ⟨sw.getLsbD 0, sw.getLsbD 1, f.sop, [h0, h1]⟩] ∧
          decodeHeader .primary h0 h1 = ⟨0, 0, (decodeHeader f.sop f.byte0 f.byte1).messageId, sw.extractLsb' 7 1,
            some (sw.extractLsb' 7 1), sw.extractLsb' 5 2, sw.extractLsb' 4 1, 1⟩)))
end

