-- ==== Sys2Proof/Laws/Memory.lean ====
section
/-! SUPPORT. The register memory: reading after writing, and the canonical form. -/

namespace Sys2Proof.Machine

/-- Every entry of a canonical memory after the first has a greater address. -/
theorem Memory.wf_cons {k : Nat} {v : Byte} {rest : Memory} (h : Memory.wf ((k, v) :: rest) = true) :
    v ≠ regReset k ∧ (∀ c ∈ rest, k < c.1) ∧ Memory.wf rest = true := by
  simp only [Memory.wf, Bool.and_eq_true, decide_eq_true_eq, List.all_eq_true] at h
  exact ⟨h.1.1, h.1.2, h.2⟩

/-- A canonical memory from its parts. -/
theorem Memory.wf_cons_of {k : Nat} {v : Byte} {rest : Memory} (hv : v ≠ regReset k) (hk : ∀ c ∈ rest, k < c.1)
    (h : Memory.wf rest = true) : Memory.wf ((k, v) :: rest) = true := by
  simp only [Memory.wf, Bool.and_eq_true, decide_eq_true_eq, List.all_eq_true]
  exact ⟨⟨hv, hk⟩, h⟩

/-- An address below every entry reads as unlisted. -/
theorem regRead_below {m : Memory} {a : Nat} (h : ∀ c ∈ m, a < c.1) : regRead m a = regReset a := by
  induction m with
  | nil => rfl
  | cons c rest ih =>
    obtain ⟨k, v⟩ := c
    have hk : a < k := h (k, v) (by simp)
    simp only [regRead]
    rw [if_neg (by omega)]
    exact ih fun c hc => h c (by simp [hc])

/-- A read after a write to the same address gives the value written. -/
theorem regRead_regWrite_same (m : Memory) (a : Nat) (b : Byte) (h : Memory.wf m = true) :
    regRead (regWrite m a b) a = b := by
  induction m with
  | nil => by_cases hb : b = regReset a <;> simp [regWrite, hb, regRead]
  | cons c rest ih =>
    obtain ⟨k, v⟩ := c
    obtain ⟨hv, hk, hw⟩ := Memory.wf_cons h
    simp only [regWrite]
    by_cases h1 : a < k
    · rw [if_pos h1]
      by_cases hb : b = regReset a
      · rw [if_pos hb, hb]
        refine regRead_below fun c hc => ?_
        rcases List.mem_cons.1 hc with rfl | hc
        · exact h1
        · have := hk c hc; omega
      · rw [if_neg hb]; simp [regRead]
    · rw [if_neg h1]
      by_cases h2 : a = k
      · subst h2
        rw [if_pos rfl]
        by_cases hb : b = regReset a
        · rw [if_pos hb, hb]; exact regRead_below hk
        · rw [if_neg hb]; simp [regRead]
      · rw [if_neg h2]
        simp only [regRead]
        rw [if_neg (by omega)]
        exact ih hw

/-- A write leaves every other address alone. -/
theorem regRead_regWrite_other (m : Memory) {a c : Nat} (b : Byte) (hc : c ≠ a) :
    regRead (regWrite m a b) c = regRead m c := by
  induction m with
  | nil => by_cases hb : b = regReset a <;> simp [regWrite, hb, regRead, Ne.symm hc]
  | cons e rest ih =>
    obtain ⟨k, v⟩ := e
    simp only [regWrite]
    split
    · split <;> simp [regRead, Ne.symm hc]
    · split
      · next h1 h2 =>
        subst h2
        split <;> simp [regRead, Ne.symm hc]
      · simp only [regRead]
        split
        · rfl
        · exact ih

/-- The addresses of a memory after a write. -/
theorem regWrite_mem {m : Memory} {a : Nat} {b : Byte} {c : Host.Cell} (h : c ∈ regWrite m a b) : c = (a, b) ∨ c ∈ m := by
  induction m with
  | nil =>
    simp only [regWrite] at h
    split at h <;> simp_all
  | cons e rest ih =>
    obtain ⟨k, v⟩ := e
    simp only [regWrite] at h
    split at h
    · split at h
      · exact .inr h
      · rcases List.mem_cons.1 h with rfl | h
        · exact .inl rfl
        · exact .inr h
    · split at h
      · split at h
        · exact .inr (by simp [h])
        · rcases List.mem_cons.1 h with rfl | h
          · exact .inl rfl
          · exact .inr (by simp [h])
      · rcases List.mem_cons.1 h with rfl | h
        · exact .inr (by simp)
        · rcases ih h with h | h
          · exact .inl h
          · exact .inr (by simp [h])

/-- A write keeps the canonical form. -/
theorem Memory.wf_regWrite (m : Memory) (a : Nat) (b : Byte) (h : Memory.wf m = true) :
    Memory.wf (regWrite m a b) = true := by
  induction m with
  | nil =>
    simp only [regWrite]
    split
    · rfl
    · next hb => exact Memory.wf_cons_of hb (by simp) rfl
  | cons e rest ih =>
    obtain ⟨k, v⟩ := e
    obtain ⟨hv, hk, hw⟩ := Memory.wf_cons h
    simp only [regWrite]
    split
    · next h1 =>
      split
      · exact h
      · next hb =>
        refine Memory.wf_cons_of hb (fun c hc => ?_) h
        rcases List.mem_cons.1 hc with rfl | hc
        · exact h1
        · have := hk c hc; omega
    · split
      · next h1 h2 =>
        subst h2
        split
        · exact hw
        · next hb => exact Memory.wf_cons_of hb hk hw
      · next h1 h2 =>
        refine Memory.wf_cons_of hv (fun c hc => ?_) (ih hw)
        rcases regWrite_mem hc with rfl | hc
        · show k < a; omega
        · exact hk c hc

/-- Canonical memories that read alike are equal. -/
theorem Memory.wf_ext (m n : Memory) (hm : Memory.wf m = true) (hn : Memory.wf n = true)
    (h : ∀ a, regRead m a = regRead n a) : m = n := by
  induction m generalizing n with
  | nil =>
    cases n with
    | nil => rfl
    | cons e rest =>
      obtain ⟨k, v⟩ := e
      have := h k
      simp only [regRead, if_true] at this
      exact absurd this.symm (Memory.wf_cons hn).1
  | cons e rest ih =>
    obtain ⟨k, v⟩ := e
    obtain ⟨hv, hk, hw⟩ := Memory.wf_cons hm
    cases n with
    | nil =>
      have := h k
      simp only [regRead, if_true] at this
      exact absurd this hv
    | cons e' rest' =>
      obtain ⟨k', v'⟩ := e'
      obtain ⟨hv', hk', hw'⟩ := Memory.wf_cons hn
      have hkk : k = k' := by
        rcases Nat.lt_trichotomy k k' with hlt | heq | hgt
        · have h1 := h k
          rw [regRead_below (m := (k', v') :: rest')] at h1
          · simp only [regRead, if_true] at h1; exact absurd h1 hv
          · intro c hc
            rcases List.mem_cons.1 hc with rfl | hc
            · exact hlt
            · have := hk' c hc; omega
        · exact heq
        · have h1 := h k'
          rw [regRead_below (m := (k, v) :: rest)] at h1
          · simp only [regRead, if_true] at h1; exact absurd h1.symm hv'
          · intro c hc
            rcases List.mem_cons.1 hc with rfl | hc
            · exact hgt
            · have := hk c hc; omega
      subst hkk
      have hvv : v = v' := by simpa [regRead] using h k
      subst hvv
      rw [ih rest' hw hw']
      intro a
      by_cases ha : a = k
      · subst ha
        rw [regRead_below hk, regRead_below hk']
      · have := h a
        simpa [regRead, Ne.symm ha] using this

end Sys2Proof.Machine
end

