-- ==== Sys2Proof/Laws/State.lean ====
section
/-! SUPPORT. The fields after each update of the state: one lemma per field an update changes or leaves, true by `rfl`. -/

namespace Sys2Proof.Machine

/-! ## `logPrim` -/

@[simp] theorem logPrim_cfg (p : Prim) (s : State) : (logPrim p s).cfg = s.cfg := rfl
@[simp] theorem logPrim_ctl (p : Prim) (s : State) : (logPrim p s).ctl = s.ctl := rfl
@[simp] theorem logPrim_notes (p : Prim) (s : State) : (logPrim p s).notes = s.notes := rfl
@[simp] theorem logPrim_running (p : Prim) (s : State) : (logPrim p s).running = s.running := rfl
@[simp] theorem logPrim_lastError (p : Prim) (s : State) : (logPrim p s).lastError = s.lastError := rfl
@[simp] theorem logPrim_ses (p : Prim) (s : State) : (logPrim p s).ses = s.ses := rfl
@[simp] theorem logPrim_scan (p : Prim) (s : State) : (logPrim p s).scan = s.scan := rfl
@[simp] theorem logPrim_phy (p : Prim) (s : State) : (logPrim p s).phy = s.phy := rfl
@[simp] theorem logPrim_diag (p : Prim) (s : State) : (logPrim p s).diag = s.diag := rfl
@[simp] theorem logPrim_trace (p : Prim) (s : State) : (logPrim p s).trace = s.trace ++ [p] := rfl
@[simp] theorem logPrim_env (p : Prim) (s : State) : (logPrim p s).env = s.env := rfl
@[simp] theorem logPrim_stops (p : Prim) (s : State) : (logPrim p s).stops = s.stops := rfl
@[simp] theorem logPrim_selects (p : Prim) (s : State) : (logPrim p s).selects = s.selects := rfl
@[simp] theorem logPrim_validates (p : Prim) (s : State) : (logPrim p s).validates = s.validates := rfl
@[simp] theorem logPrim_draws (p : Prim) (s : State) : (logPrim p s).draws = s.draws := rfl
@[simp] theorem logPrim_port (p : Prim) (s : State) : (logPrim p s).port = s.port := rfl
@[simp] theorem logPrim_result (p : Prim) (s : State) : (logPrim p s).result = s.result := rfl

/-! ## `emitEvent` -/

@[simp] theorem emitEvent_cfg (e : Event) (s : State) : (emitEvent e s).cfg = s.cfg := rfl
@[simp] theorem emitEvent_ctl (e : Event) (s : State) : (emitEvent e s).ctl = s.ctl := rfl
@[simp] theorem emitEvent_notes (e : Event) (s : State) : (emitEvent e s).notes = s.notes := rfl
@[simp] theorem emitEvent_running (e : Event) (s : State) : (emitEvent e s).running = s.running := rfl
@[simp] theorem emitEvent_lastError (e : Event) (s : State) : (emitEvent e s).lastError = s.lastError := rfl
@[simp] theorem emitEvent_ses (e : Event) (s : State) : (emitEvent e s).ses = s.ses := rfl
@[simp] theorem emitEvent_scan (e : Event) (s : State) : (emitEvent e s).scan = s.scan := rfl
@[simp] theorem emitEvent_phy (e : Event) (s : State) : (emitEvent e s).phy = s.phy := rfl
@[simp] theorem emitEvent_diag (e : Event) (s : State) : (emitEvent e s).diag = s.diag ++ [e] := rfl
@[simp] theorem emitEvent_trace (e : Event) (s : State) : (emitEvent e s).trace = s.trace ++ [.emit e] := rfl
@[simp] theorem emitEvent_env (e : Event) (s : State) : (emitEvent e s).env = s.env := rfl
@[simp] theorem emitEvent_stops (e : Event) (s : State) : (emitEvent e s).stops = s.stops := rfl
@[simp] theorem emitEvent_selects (e : Event) (s : State) : (emitEvent e s).selects = s.selects := rfl
@[simp] theorem emitEvent_validates (e : Event) (s : State) : (emitEvent e s).validates = s.validates := rfl
@[simp] theorem emitEvent_draws (e : Event) (s : State) : (emitEvent e s).draws = s.draws := rfl
@[simp] theorem emitEvent_port (e : Event) (s : State) : (emitEvent e s).port = s.port := rfl
@[simp] theorem emitEvent_result (e : Event) (s : State) : (emitEvent e s).result = s.result := rfl

/-! ## `setCtl` -/

@[simp] theorem setCtl_cfg (c : Ctl) (s : State) : (setCtl c s).cfg = s.cfg := rfl
@[simp] theorem setCtl_ctl (c : Ctl) (s : State) : (setCtl c s).ctl = c := rfl
@[simp] theorem setCtl_notes (c : Ctl) (s : State) : (setCtl c s).notes = [] := rfl
@[simp] theorem setCtl_running (c : Ctl) (s : State) : (setCtl c s).running = s.running := rfl
@[simp] theorem setCtl_lastError (c : Ctl) (s : State) : (setCtl c s).lastError = s.lastError := rfl
@[simp] theorem setCtl_ses (c : Ctl) (s : State) : (setCtl c s).ses = s.ses := rfl
@[simp] theorem setCtl_scan (c : Ctl) (s : State) : (setCtl c s).scan = s.scan := rfl
@[simp] theorem setCtl_phy (c : Ctl) (s : State) : (setCtl c s).phy = s.phy := rfl
@[simp] theorem setCtl_diag (c : Ctl) (s : State) : (setCtl c s).diag = s.diag := rfl
@[simp] theorem setCtl_trace (c : Ctl) (s : State) : (setCtl c s).trace = s.trace := rfl
@[simp] theorem setCtl_env (c : Ctl) (s : State) : (setCtl c s).env = s.env := rfl
@[simp] theorem setCtl_stops (c : Ctl) (s : State) : (setCtl c s).stops = s.stops := rfl
@[simp] theorem setCtl_selects (c : Ctl) (s : State) : (setCtl c s).selects = s.selects := rfl
@[simp] theorem setCtl_validates (c : Ctl) (s : State) : (setCtl c s).validates = s.validates := rfl
@[simp] theorem setCtl_draws (c : Ctl) (s : State) : (setCtl c s).draws = s.draws := rfl
@[simp] theorem setCtl_port (c : Ctl) (s : State) : (setCtl c s).port = s.port := rfl
@[simp] theorem setCtl_result (c : Ctl) (s : State) : (setCtl c s).result = s.result := rfl

/-! ## `updSes` -/

@[simp] theorem updSes_cfg (f : Session → Session) (s : State) : (updSes f s).cfg = s.cfg := rfl
@[simp] theorem updSes_ctl (f : Session → Session) (s : State) : (updSes f s).ctl = s.ctl := rfl
@[simp] theorem updSes_notes (f : Session → Session) (s : State) : (updSes f s).notes = s.notes := rfl
@[simp] theorem updSes_running (f : Session → Session) (s : State) : (updSes f s).running = s.running := rfl
@[simp] theorem updSes_lastError (f : Session → Session) (s : State) : (updSes f s).lastError = s.lastError := rfl
@[simp] theorem updSes_ses (f : Session → Session) (s : State) : (updSes f s).ses = f s.ses := rfl
@[simp] theorem updSes_scan (f : Session → Session) (s : State) : (updSes f s).scan = s.scan := rfl
@[simp] theorem updSes_phy (f : Session → Session) (s : State) : (updSes f s).phy = s.phy := rfl
@[simp] theorem updSes_diag (f : Session → Session) (s : State) : (updSes f s).diag = s.diag := rfl
@[simp] theorem updSes_trace (f : Session → Session) (s : State) : (updSes f s).trace = s.trace := rfl
@[simp] theorem updSes_env (f : Session → Session) (s : State) : (updSes f s).env = s.env := rfl
@[simp] theorem updSes_stops (f : Session → Session) (s : State) : (updSes f s).stops = s.stops := rfl
@[simp] theorem updSes_selects (f : Session → Session) (s : State) : (updSes f s).selects = s.selects := rfl
@[simp] theorem updSes_validates (f : Session → Session) (s : State) : (updSes f s).validates = s.validates := rfl
@[simp] theorem updSes_draws (f : Session → Session) (s : State) : (updSes f s).draws = s.draws := rfl
@[simp] theorem updSes_port (f : Session → Session) (s : State) : (updSes f s).port = s.port := rfl
@[simp] theorem updSes_result (f : Session → Session) (s : State) : (updSes f s).result = s.result := rfl

/-! ## `setScan` -/

@[simp] theorem setScan_cfg (c : Option Scan) (s : State) : (setScan c s).cfg = s.cfg := rfl
@[simp] theorem setScan_ctl (c : Option Scan) (s : State) : (setScan c s).ctl = s.ctl := rfl
@[simp] theorem setScan_notes (c : Option Scan) (s : State) : (setScan c s).notes = s.notes := rfl
@[simp] theorem setScan_running (c : Option Scan) (s : State) : (setScan c s).running = s.running := rfl
@[simp] theorem setScan_lastError (c : Option Scan) (s : State) : (setScan c s).lastError = s.lastError := rfl
@[simp] theorem setScan_ses (c : Option Scan) (s : State) : (setScan c s).ses = s.ses := rfl
@[simp] theorem setScan_scan (c : Option Scan) (s : State) : (setScan c s).scan = c := rfl
@[simp] theorem setScan_phy (c : Option Scan) (s : State) : (setScan c s).phy = s.phy := rfl
@[simp] theorem setScan_diag (c : Option Scan) (s : State) : (setScan c s).diag = s.diag := rfl
@[simp] theorem setScan_trace (c : Option Scan) (s : State) : (setScan c s).trace = s.trace := rfl
@[simp] theorem setScan_env (c : Option Scan) (s : State) : (setScan c s).env = s.env := rfl
@[simp] theorem setScan_stops (c : Option Scan) (s : State) : (setScan c s).stops = s.stops := rfl
@[simp] theorem setScan_selects (c : Option Scan) (s : State) : (setScan c s).selects = s.selects := rfl
@[simp] theorem setScan_validates (c : Option Scan) (s : State) : (setScan c s).validates = s.validates := rfl
@[simp] theorem setScan_draws (c : Option Scan) (s : State) : (setScan c s).draws = s.draws := rfl
@[simp] theorem setScan_port (c : Option Scan) (s : State) : (setScan c s).port = s.port := rfl
@[simp] theorem setScan_result (c : Option Scan) (s : State) : (setScan c s).result = s.result := rfl

/-! ## `setResult` -/

@[simp] theorem setResult_cfg (v : Value) (s : State) : (setResult v s).cfg = s.cfg := rfl
@[simp] theorem setResult_ctl (v : Value) (s : State) : (setResult v s).ctl = s.ctl := rfl
@[simp] theorem setResult_notes (v : Value) (s : State) : (setResult v s).notes = s.notes := rfl
@[simp] theorem setResult_running (v : Value) (s : State) : (setResult v s).running = s.running := rfl
@[simp] theorem setResult_lastError (v : Value) (s : State) : (setResult v s).lastError = s.lastError := rfl
@[simp] theorem setResult_ses (v : Value) (s : State) : (setResult v s).ses = s.ses := rfl
@[simp] theorem setResult_scan (v : Value) (s : State) : (setResult v s).scan = s.scan := rfl
@[simp] theorem setResult_phy (v : Value) (s : State) : (setResult v s).phy = s.phy := rfl
@[simp] theorem setResult_diag (v : Value) (s : State) : (setResult v s).diag = s.diag := rfl
@[simp] theorem setResult_trace (v : Value) (s : State) : (setResult v s).trace = s.trace := rfl
@[simp] theorem setResult_env (v : Value) (s : State) : (setResult v s).env = s.env := rfl
@[simp] theorem setResult_stops (v : Value) (s : State) : (setResult v s).stops = s.stops := rfl
@[simp] theorem setResult_selects (v : Value) (s : State) : (setResult v s).selects = s.selects := rfl
@[simp] theorem setResult_validates (v : Value) (s : State) : (setResult v s).validates = s.validates := rfl
@[simp] theorem setResult_draws (v : Value) (s : State) : (setResult v s).draws = s.draws := rfl
@[simp] theorem setResult_port (v : Value) (s : State) : (setResult v s).port = s.port := rfl
@[simp] theorem setResult_result (v : Value) (s : State) : (setResult v s).result = v := rfl

/-! ## `passTime` -/

@[simp] theorem passTime_cfg (d : Nat) (s : State) : (passTime d s).cfg = s.cfg := rfl
@[simp] theorem passTime_ctl (d : Nat) (s : State) : (passTime d s).ctl = s.ctl := rfl
@[simp] theorem passTime_notes (d : Nat) (s : State) : (passTime d s).notes = s.notes := rfl
@[simp] theorem passTime_running (d : Nat) (s : State) : (passTime d s).running = s.running := rfl
@[simp] theorem passTime_lastError (d : Nat) (s : State) : (passTime d s).lastError = s.lastError := rfl
@[simp] theorem passTime_ses (d : Nat) (s : State) : (passTime d s).ses = s.ses := rfl
@[simp] theorem passTime_scan (d : Nat) (s : State) : (passTime d s).scan = s.scan := rfl
@[simp] theorem passTime_phy (d : Nat) (s : State) : (passTime d s).phy = { s.phy with settle := s.phy.settle - d } := rfl
@[simp] theorem passTime_diag (d : Nat) (s : State) : (passTime d s).diag = s.diag := rfl
@[simp] theorem passTime_trace (d : Nat) (s : State) : (passTime d s).trace = s.trace := rfl
@[simp] theorem passTime_env (d : Nat) (s : State) : (passTime d s).env = s.env := rfl
@[simp] theorem passTime_stops (d : Nat) (s : State) : (passTime d s).stops = s.stops := rfl
@[simp] theorem passTime_selects (d : Nat) (s : State) : (passTime d s).selects = s.selects := rfl
@[simp] theorem passTime_validates (d : Nat) (s : State) : (passTime d s).validates = s.validates := rfl
@[simp] theorem passTime_draws (d : Nat) (s : State) : (passTime d s).draws = s.draws := rfl
@[simp] theorem passTime_port (d : Nat) (s : State) : (passTime d s).port = s.port := rfl
@[simp] theorem passTime_result (d : Nat) (s : State) : (passTime d s).result = s.result := rfl

/-! ## `surface` -/

@[simp] theorem surface_cfg (e : Err) (s : State) : (surface e s).cfg = s.cfg := rfl
@[simp] theorem surface_ctl (e : Err) (s : State) : (surface e s).ctl = .fault e := rfl
@[simp] theorem surface_notes (e : Err) (s : State) : (surface e s).notes = [] := rfl
@[simp] theorem surface_running (e : Err) (s : State) : (surface e s).running = s.running := rfl
@[simp] theorem surface_lastError (e : Err) (s : State) : (surface e s).lastError = some e := rfl
@[simp] theorem surface_ses (e : Err) (s : State) : (surface e s).ses = s.ses := rfl
@[simp] theorem surface_scan (e : Err) (s : State) : (surface e s).scan = none := rfl
@[simp] theorem surface_phy (e : Err) (s : State) : (surface e s).phy = s.phy := rfl
@[simp] theorem surface_diag (e : Err) (s : State) : (surface e s).diag = s.diag ++ [.fault e] := rfl
@[simp] theorem surface_trace (e : Err) (s : State) : (surface e s).trace = s.trace ++ [.emit (.fault e)] := rfl
@[simp] theorem surface_env (e : Err) (s : State) : (surface e s).env = s.env := rfl
@[simp] theorem surface_stops (e : Err) (s : State) : (surface e s).stops = s.stops := rfl
@[simp] theorem surface_selects (e : Err) (s : State) : (surface e s).selects = s.selects := rfl
@[simp] theorem surface_validates (e : Err) (s : State) : (surface e s).validates = s.validates := rfl
@[simp] theorem surface_draws (e : Err) (s : State) : (surface e s).draws = s.draws := rfl
@[simp] theorem surface_port (e : Err) (s : State) : (surface e s).port = s.port := rfl
@[simp] theorem surface_result (e : Err) (s : State) : (surface e s).result = .none := rfl

/-! ## `catchCancel` -/

@[simp] theorem catchCancel_cfg (s : State) : (catchCancel s).cfg = s.cfg := rfl
@[simp] theorem catchCancel_ctl (s : State) : (catchCancel s).ctl = .pause 0 := rfl
@[simp] theorem catchCancel_notes (s : State) : (catchCancel s).notes = [] := rfl
@[simp] theorem catchCancel_running (s : State) : (catchCancel s).running = s.running := rfl
@[simp] theorem catchCancel_lastError (s : State) : (catchCancel s).lastError = s.lastError := rfl
@[simp] theorem catchCancel_ses (s : State) : (catchCancel s).ses = s.ses := rfl
@[simp] theorem catchCancel_scan (s : State) : (catchCancel s).scan = none := rfl
@[simp] theorem catchCancel_phy (s : State) : (catchCancel s).phy = s.phy := rfl
@[simp] theorem catchCancel_diag (s : State) : (catchCancel s).diag = s.diag := rfl
@[simp] theorem catchCancel_trace (s : State) : (catchCancel s).trace = s.trace := rfl
@[simp] theorem catchCancel_env (s : State) : (catchCancel s).env = s.env := rfl
@[simp] theorem catchCancel_stops (s : State) : (catchCancel s).stops = s.stops := rfl
@[simp] theorem catchCancel_selects (s : State) : (catchCancel s).selects = s.selects := rfl
@[simp] theorem catchCancel_validates (s : State) : (catchCancel s).validates = s.validates := rfl
@[simp] theorem catchCancel_draws (s : State) : (catchCancel s).draws = s.draws := rfl
@[simp] theorem catchCancel_port (s : State) : (catchCancel s).port = s.port := rfl
@[simp] theorem catchCancel_result (s : State) : (catchCancel s).result = .none := rfl

/-! ## The configuration -/

/-- The byte `CONFIG_PHY` writes to Control3 never sets SEND_HARD_RESET (R43). -/
@[simp] theorem control3_sendHardReset (c : Control3Value) : (BitVec.ofNat 8 c.val)[6] = false := by
  have h : (BitVec.ofNat 8 c.val).getLsbD 6 = false := by rw [BitVec.getLsbD_ofNat, c.property, Bool.and_false]
  simpa using h

end Sys2Proof.Machine
end

