-- ==== Sys2Proof/Laws/Ops.lean ====
section
/-! SUPPORT. What the shared operations can do: the environment's changes, how sequencing passes results on, a completed
transaction at a register, a read-modify-write, a FIFO transaction. -/

namespace Sys2Proof.Machine

/-! ## The environment (R80, R82) -/

/-- A transmission changes the TX FIFO, its start, InterruptA and the cable, and nothing else of the PHY (R66, R82). -/
theorem phyTransmit_changes (e : TxEnd) (p : Phy) :
    phyTransmit e p = { p with
      tx := (phyTransmit e p).tx, txGo := (phyTransmit e p).txGo, intA := (phyTransmit e p).intA
      wire := (phyTransmit e p).wire } := by
  simp only [phyTransmit]; split <;> rfl

@[simp] theorem phyTransmit_regs (e : TxEnd) (p : Phy) : (phyTransmit e p).regs = p.regs := by
  rw [phyTransmit_changes]
@[simp] theorem phyTransmit_rx (e : TxEnd) (p : Phy) : (phyTransmit e p).rx = p.rx := by rw [phyTransmit_changes]
@[simp] theorem phyTransmit_cc1 (e : TxEnd) (p : Phy) : (phyTransmit e p).cc1 = p.cc1 := by rw [phyTransmit_changes]
@[simp] theorem phyTransmit_cc2 (e : TxEnd) (p : Phy) : (phyTransmit e p).cc2 = p.cc2 := by rw [phyTransmit_changes]
@[simp] theorem phyTransmit_settle (e : TxEnd) (p : Phy) : (phyTransmit e p).settle = p.settle := by
  rw [phyTransmit_changes]
@[simp] theorem phyTransmit_intB (e : TxEnd) (p : Phy) : (phyTransmit e p).intB = p.intB := by
  rw [phyTransmit_changes]

/-- What the token reader leaves is no longer than what it was given. -/
theorem txTake_length (go : Bool) (v w : TxView) (bs rest : List Byte) (h : txTake go v bs = some (w, rest)) :
    rest.length ≤ bs.length := by
  induction bs generalizing v with
  | nil => simp only [txTake] at h; split at h <;> simp_all
  | cons b bs ih =>
    simp only [txTake] at h
    split at h
    · have := ih _ h; simp only [List.length_cons]; omega
    · split at h
      · cases h; simp
      · have := ih _ h; simp only [List.length_cons]; omega

/-- Transmission only drains the TX FIFO (R66). -/
theorem phyTransmit_tx_length (e : TxEnd) (p : Phy) : (phyTransmit e p).tx.length ≤ p.tx.length := by
  simp only [phyTransmit]
  split
  · exact Nat.le_refl _
  · next v rest h => exact txTake_length _ _ _ _ _ h

/-- GoodCRC goes on the cable and latches InterruptB bit 0; nothing else of the PHY changes (R67). -/
theorem answerGoodCrc_changes (f : RxFrame) (p : Phy) :
    answerGoodCrc f p = { p with intB := (answerGoodCrc f p).intB, wire := (answerGoodCrc f p).wire } := by
  simp only [answerGoodCrc]; split <;> rfl

/-- Bytes that arrive change the RX FIFO, and the draws if they do not fit (R67, I15). -/
theorem rxArrive_changes (new : List Byte) (s : State) :
    rxArrive new s = { s with
      phy := { s.phy with rx := (rxArrive new s).phy.rx }
      draws := (rxArrive new s).draws } := by
  simp only [rxArrive]; split <;> rfl

/-- Bytes that fit are appended. -/
theorem rxArrive_fits {new : List Byte} {s : State} (h : s.phy.rx.length + new.length ≤ s.cfg.rxFifoBytes) :
    rxArrive new s = { s with phy := { s.phy with rx := s.phy.rx ++ new } } := by
  have hn : rxOverflows s.cfg s.phy new.length = false := by simp [rxOverflows]; omega
  simp [rxArrive, hn]

/-- The RX FIFO holds at most its capacity after bytes arrived (R54). -/
theorem rxArrive_bound (new : List Byte) (s : State) : (rxArrive new s).phy.rx.length ≤ s.cfg.rxFifoBytes := by
  simp only [rxArrive]
  split
  · simp only [List.length_take]; omega
  · next h => simp only [rxOverflows, decide_eq_true_eq] at h; simp only [List.length_append]; omega

/-- Between two transactions no R/W register, no settling time and nothing of the block changes, and the TX FIFO only drains
(R80, R82). -/
structure Async (s t : State) : Prop where
  same : t = { s with phy := t.phy, draws := t.draws }
  regs : t.phy.regs = s.phy.regs
  settle : t.phy.settle = s.phy.settle
  tx : t.phy.tx.length ≤ s.phy.tx.length

theorem Async.refl (s : State) : Async s s := ⟨rfl, rfl, rfl, Nat.le_refl _⟩

theorem Async.trans {s t u : State} (h : Async s t) (k : Async t u) : Async s u := by
  refine ⟨?_, k.regs.trans h.regs, k.settle.trans h.settle, Nat.le_trans k.tx h.tx⟩
  have h1 := h.same
  have k1 := k.same
  rw [h1] at k1
  exact k1

/-- Bytes arriving are such a change. -/
theorem async_rxArrive (new : List Byte) (s : State) : Async s (rxArrive new s) := by
  refine ⟨?_, ?_, ?_, ?_⟩ <;> rw [rxArrive_changes] <;> exact Nat.le_refl _

/-- Every asynchronous change is such a change. -/
theorem async_phyAct (a : PhyAct) (s : State) : Async s (phyAct a s) := by
  cases a with
  | transmit e => exact ⟨rfl, phyTransmit_regs e _, phyTransmit_settle e _, phyTransmit_tx_length e _⟩
  | bytes bs => exact async_rxArrive bs s
  | receive f =>
    simp only [phyAct, phyReceive]
    split
    · refine Async.trans ⟨rfl, ?_, ?_, ?_⟩ (async_rxArrive _ _) <;> simp only <;> rw [answerGoodCrc_changes] <;>
        exact Nat.le_refl _
    · exact Async.refl s
  | _ => exact ⟨rfl, rfl, rfl, Nat.le_refl _⟩

/-- And any number of them. -/
theorem async_phyActs (as : List PhyAct) (s : State) : Async s (phyActs as s) := by
  induction as generalizing s with
  | nil => exact Async.refl s
  | cons a rest ih => exact (async_phyAct a s).trans (ih _)

/-- What a tick of the schedule changes: the PHY, the draws, and the schedule. -/
theorem envTick_changes (s : State) :
    envTick s = { s with phy := (envTick s).phy, draws := (envTick s).draws, env := s.env.tail } := by
  cases h : s.env with
  | nil => simp only [envTick, h]; rw [List.tail_nil, ← h]
  | cons e rest =>
    simp only [envTick, h, List.tail_cons]
    exact congrArg (fun u : State => { u with env := rest }) (async_phyActs e.acts s).same

@[simp] theorem envTick_cfg (s : State) : (envTick s).cfg = s.cfg := by rw [envTick_changes]
@[simp] theorem envTick_ctl (s : State) : (envTick s).ctl = s.ctl := by rw [envTick_changes]
@[simp] theorem envTick_notes (s : State) : (envTick s).notes = s.notes := by rw [envTick_changes]
@[simp] theorem envTick_running (s : State) : (envTick s).running = s.running := by rw [envTick_changes]
@[simp] theorem envTick_lastError (s : State) : (envTick s).lastError = s.lastError := by rw [envTick_changes]
@[simp] theorem envTick_ses (s : State) : (envTick s).ses = s.ses := by rw [envTick_changes]
@[simp] theorem envTick_scan (s : State) : (envTick s).scan = s.scan := by rw [envTick_changes]
@[simp] theorem envTick_diag (s : State) : (envTick s).diag = s.diag := by rw [envTick_changes]
@[simp] theorem envTick_trace (s : State) : (envTick s).trace = s.trace := by rw [envTick_changes]
@[simp] theorem envTick_env (s : State) : (envTick s).env = s.env.tail := by rw [envTick_changes]
@[simp] theorem envTick_stops (s : State) : (envTick s).stops = s.stops := by rw [envTick_changes]
@[simp] theorem envTick_selects (s : State) : (envTick s).selects = s.selects := by rw [envTick_changes]
@[simp] theorem envTick_validates (s : State) : (envTick s).validates = s.validates := by rw [envTick_changes]
@[simp] theorem envTick_port (s : State) : (envTick s).port = s.port := by rw [envTick_changes]
@[simp] theorem envTick_result (s : State) : (envTick s).result = s.result := by rw [envTick_changes]

@[simp] theorem envTick_regs (s : State) : (envTick s).phy.regs = s.phy.regs := by
  simp only [envTick]
  split
  · rfl
  · exact (async_phyActs _ s).regs

@[simp] theorem envTick_settle (s : State) : (envTick s).phy.settle = s.phy.settle := by
  simp only [envTick]
  split
  · rfl
  · exact (async_phyActs _ s).settle

/-- The TX FIFO never grows by itself. -/
theorem envTick_tx_length (s : State) : (envTick s).phy.tx.length ≤ s.phy.tx.length := by
  simp only [envTick]
  split
  · exact Nat.le_refl _
  · exact (async_phyActs _ s).tx

/-- With an empty schedule nothing changes. -/
theorem envTick_quiet {s : State} (h : s.env = []) : envTick s = s := by simp [envTick, h]

/-- A change that sets no level leaves the levels. -/
theorem phyAct_levels {a : PhyAct} {s : State} (h : setsLevel a = false) :
    (phyAct a s).phy.cc1 = s.phy.cc1 ∧ (phyAct a s).phy.cc2 = s.phy.cc2 := by
  cases a with
  | transmit e => exact ⟨phyTransmit_cc1 e _, phyTransmit_cc2 e _⟩
  | bytes bs => constructor <;> simp only [phyAct] <;> rw [rxArrive_changes]
  | receive f =>
    simp only [phyAct, phyReceive]
    split
    · constructor <;> rw [rxArrive_changes] <;> simp only <;> rw [answerGoodCrc_changes]
    · exact ⟨rfl, rfl⟩
  | cc1 v => cases h
  | cc2 v => cases h
  | _ => exact ⟨rfl, rfl⟩

theorem phyActs_levels {as : List PhyAct} {s : State} (h : ∀ a ∈ as, setsLevel a = false) :
    (phyActs as s).phy.cc1 = s.phy.cc1 ∧ (phyActs as s).phy.cc2 = s.phy.cc2 := by
  induction as generalizing s with
  | nil => exact ⟨rfl, rfl⟩
  | cons a rest ih =>
    have h1 := phyAct_levels (s := s) (h a (by simp))
    have h2 := ih (s := phyAct a s) fun b hb => h b (by simp [hb])
    exact ⟨h2.1.trans h1.1, h2.2.trans h1.2⟩

/-- Steady levels stay. -/
theorem envTick_levels {s : State} (h : LevelsSteady s) :
    (envTick s).phy.cc1 = s.phy.cc1 ∧ (envTick s).phy.cc2 = s.phy.cc2 := by
  simp only [envTick]
  split
  · exact ⟨rfl, rfl⟩
  · next e rest he => exact phyActs_levels (h e (by simp [he]))

/-- The bus of a schedule that completes everything completes the next transaction. -/
theorem BusCompletes.fate {s : State} (h : BusCompletes s) : busFate s = .completes := by
  simp only [busFate]
  split
  · rfl
  · next e rest he => exact h e (by simp [he])

theorem BusCompletes.of_tail {s t : State} (h : BusCompletes s) (ht : t.env = s.env.tail) : BusCompletes t := by
  intro e he
  rw [ht] at he
  exact h e (List.mem_of_mem_tail he)

theorem BusCompletes.of_env {s t : State} (h : BusCompletes s) (ht : t.env = s.env) : BusCompletes t := by
  intro e he
  rw [ht] at he
  exact h e he

theorem LevelsSteady.of_tail {s t : State} (h : LevelsSteady s) (ht : t.env = s.env.tail) : LevelsSteady t := by
  intro e he
  rw [ht] at he
  exact h e (List.mem_of_mem_tail he)

/-! ## Running operations to their end -/

@[simp] theorem evalOp_done {α : Type} (a : α) (s : State) : evalOp (.done a) s = .ok a s := rfl
@[simp] theorem evalOp_exit {α : Type} (x : Exit) (s : State) : evalOp (.exit x : Op α) s = .exit x s := rfl
@[simp] theorem evalOp_halt {α : Type} (h : Halt) (s : State) : evalOp (.halt h : Op α) s = .halt h := rfl

/-- Running a sequence: the first operation to its end, then the second from its result (R353). -/
@[simp] theorem evalOp_bind {α β : Type} (m : Op α) (f : α → Op β) (s : State) :
    evalOp (opBind m f) s = (match evalOp m s with
      | .ok a s' => evalOp (f a) s'
      | .exit x s' => .exit x s'
      | .halt h => .halt h) := by
  induction m generalizing s with
  | done a => rfl
  | exit x => rfl
  | halt h => rfl
  | conf k ih => exact ih s.cfg s
  | see g k ih => exact ih (g s).1 (g s).2
  | change g k ih => exact ih (g s)
  | prim g k ih =>
    simp only [opBind, evalOp]
    cases g s with
    | ok v t => exact ih v t
    | exit x t => rfl
    | halt h => rfl

@[simp] theorem evalOp_seq {α β : Type} (m : Op α) (k : Op β) (s : State) :
    evalOp (opSeq m k) s = (match evalOp m s with
      | .ok _ s' => evalOp k s'
      | .exit x s' => .exit x s'
      | .halt h => .halt h) := evalOp_bind m (fun _ => k) s

@[simp] theorem evalOp_pure {α : Type} (a : α) (s : State) : evalOp (opPure a) s = .ok a s := rfl
@[simp] theorem evalOp_raise {α : Type} (e : Err) (s : State) : evalOp (opRaise e : Op α) s = .exit (.error e) s := rfl
@[simp] theorem evalOp_cfg (s : State) : evalOp opCfg s = .ok s.cfg s := rfl
@[simp] theorem evalOp_modify (f : State → State) (s : State) : evalOp (opModify f) s = .ok () (f s) := rfl
@[simp] theorem opRequire_true {α : Type} (e : Err) (k : Op α) : opRequire true e k = k := rfl
@[simp] theorem opRequire_false {α : Type} (e : Err) (k : Op α) : opRequire false e k = opRaise e := rfl
@[simp] theorem opCodec_ok {α : Type} (op : Byte) (a : α) : opCodec op (.ok a) = opPure a := rfl
@[simp] theorem opCodec_error {α : Type} (op : Byte) (e : CodecError) :
    (opCodec op (.error e) : Op α) = opRaise (codecErr op e) := rfl

@[simp] theorem toBytes_bytes (bs : List Byte) : (Val.bytes bs).toBytes = bs := rfl
@[simp] theorem toFlag_flag (b : Bool) : (Val.flag b).toFlag = b := rfl
@[simp] theorem toChoice_choice (c : Option (Nat × Nat)) : (Val.choice c).toChoice = c := rfl
@[simp] theorem toId_id (i : BitVec 3) : (Val.id i).toId = i := rfl
@[simp] theorem toLog_log (rs : List SentRecord) : (Val.log rs).toLog = rs := rfl

/-- A reading between primitives, where its form as a value is read back. -/
theorem evalOp_see {α : Type} {put : α → Val} {get : Val → α} (h : ∀ a, get (put a) = a) (f : State → α × State)
    (s : State) : evalOp (opSee put get f) s = .ok (f s).1 (f s).2 := by
  simp only [opSee, evalOp, evalOp_pure, h]

/-- A primitive is its effect, where its form as a value is read back. -/
theorem evalOp_prim {α : Type} {put : α → Val} {get : Val → α} (h : ∀ a, get (put a) = a) (f : State → Res α) (s : State) :
    evalOp (opPrim put get f) s = f s := by
  simp only [opPrim, evalOp]
  cases f s <;> simp [h]

@[simp] theorem evalOp_memRead (op addr : Byte) (n : Nat) (s : State) :
    evalOp (memRead op addr n) s = busRead op addr n s := evalOp_prim toBytes_bytes _ s
@[simp] theorem evalOp_memWrite (op addr : Byte) (v : List Byte) (s : State) :
    evalOp (memWrite op addr v) s = busWrite op addr v s := evalOp_prim (fun _ => rfl) _ s
@[simp] theorem evalOp_seeId (f : State → BitVec 3 × State) (s : State) :
    evalOp (opSee .id Val.toId f) s = .ok (f s).1 (f s).2 := evalOp_see toId_id f s
@[simp] theorem evalOp_seeLog (f : State → List SentRecord × State) (s : State) :
    evalOp (opSee .log Val.toLog f) s = .ok (f s).1 (f s).2 := evalOp_see toLog_log f s
@[simp] theorem evalOp_seeFlag (f : State → Bool × State) (s : State) :
    evalOp (opSee .flag Val.toFlag f) s = .ok (f s).1 (f s).2 := evalOp_see toFlag_flag f s
@[simp] theorem evalOp_emit (e : Event) (s : State) : evalOp (emit e) s = .ok () (emitEvent e s) := rfl
@[simp] theorem evalOp_wait (d : Nat) (s : State) :
    evalOp (waitFor d) s = .ok () (logPrim (.wait d) (passTime d s)) := rfl
@[simp] theorem evalOp_tell (a : Ask) (s : State) : evalOp (tell a) s = .ok () (logPrim (.ask a) s) := rfl
@[simp] theorem evalOp_askSelect (pdos : List Pdo) (s : State) :
    evalOp (askSelect pdos) s = .ok (hostSelects pdos s).1 (hostSelects pdos s).2 := rfl
@[simp] theorem evalOp_askValidate (profile : FixedPdo) (m : Message) (s : State) :
    evalOp (askValidate profile m) s = .ok (hostValidates profile m s).1 (hostValidates profile m s).2 := rfl
@[simp] theorem evalOp_sampleStop (s : State) :
    evalOp sampleStop s = .ok (s.stops.headD false) { s with stops := s.stops.tail } := rfl
@[simp] theorem evalOp_samplePin (s : State) : evalOp samplePin s = .ok (intPin (envTick s).phy) (envTick s) := rfl

@[simp] theorem conclude_ok {α : Type} (v : α → Value) (a : α) (s : State) :
    conclude v (.ok a s) = .next (setResult (v a) s) := rfl
@[simp] theorem conclude_exit {α : Type} (v : α → Value) (x : Exit) (s : State) :
    conclude v (.exit x s) = .next (takeExit x s) := rfl
@[simp] theorem takeExit_error (e : Err) (s : State) : takeExit (.error e) s = surface e s := rfl
@[simp] theorem takeExit_cancel (s : State) : takeExit .cancel s = catchCancel s := rfl
@[simp] theorem takeExit_unfinished (s : State) : takeExit .unfinished s = s := rfl

/-- An operation that ends is its own outcome, also where it scans. -/
theorem runScan_ended {α : Type} {r : Option Running} {value : α → Value} {m : Op α} {s : State}
    (h : ∀ t, evalOp m s ≠ .exit .unfinished t) : runScan r value m s = runOp value m s := by
  cases hm : evalOp m s with
  | exit x t =>
    cases x with
    | unfinished => exact absurd hm (h t)
    | _ => simp only [runScan, runOp, hm]
  | _ => simp only [runScan, runOp, hm]

/-- An operation that has not ended is left under way, at the position its run reached. -/
theorem runScan_unfinished {α : Type} {r : Option Running} {value : α → Value} {m : Op α} {s t : State}
    (h : evalOp m s = .exit .unfinished t) : runScan r value m s = .next (leaveUnderWay r (trail m s) t) := by
  simp only [runScan, h]

/-! ## Transactions that complete -/

/-- A completed read of an `R/W` register answers its value and changes nothing else (R63). -/
theorem readReg_rw {op addr : Byte} {info : RegInfo} {s : State} (h : busFate s = .completes)
    (hi : regInfo addr.toNat = some info) (ha : info.access = .readWrite) (hf : addr ≠ 0x43) :
    evalOp (readReg op addr) s = .ok (regRead s.phy.regs addr.toNat)
      (logPrim (.rd addr [regRead s.phy.regs addr.toNat]) (envTick s)) := by
  have hp : phyRead addr 1 (envTick s) = .done [regRead s.phy.regs addr.toNat] (envTick s) := by
    simp only [phyRead, if_neg hf, hi, ha, envTick_regs, ne_eq, not_true, if_false]
  simp only [readReg, evalOp_bind, evalOp_memRead, busRead, h, hp, answered, answeredBytes, evalOp_pure, List.headD_cons]

/-- A completed write of an `R/W` register stores its bits and performs its actions (R63, R68). -/
theorem writeReg_rw {op addr v : Byte} {info : RegInfo} {s : State} (h : busFate s = .completes)
    (hi : regInfo addr.toNat = some info) (ha : info.access = .readWrite) (hf : addr ≠ 0x43) :
    evalOp (writeReg op addr v) s = .ok ()
      (logPrim (.wr addr [v]) { envTick s with
        phy := writeAction s.cfg addr v { (envTick s).phy with
          regs := regWrite s.phy.regs addr.toNat (storedBits info v) } }) := by
  simp only [writeReg, evalOp_memWrite, busWrite, h, phyWrite, if_neg hf, hi, ha, answered, envTick_regs, envTick_cfg]

/-- A completed FIFO write appends its bytes (R65). -/
theorem memWrite_fifo {op : Byte} {v : List Byte} {s : State} (h : busFate s = .completes) (hr : TxRoom v.length s) :
    evalOp (memWrite op 0x43 v) s = .ok ()
      (logPrim (.wr 0x43 v) { envTick s with phy := { (envTick s).phy with tx := (envTick s).phy.tx ++ v } }) := by
  have := envTick_tx_length s
  simp only [TxRoom] at hr
  have hn : ¬ s.cfg.txFifoBytes.val < (envTick s).phy.tx.length + v.length := by omega
  simp [busWrite, h, phyWrite, answered, hn]

/-- A completed FIFO read removes and answers bytes, padded (R64). -/
theorem memRead_fifo {op : Byte} {n : Nat} {s : State} (h : busFate s = .completes) :
    evalOp (memRead op 0x43 n) s = .ok (rxRead s.cfg (envTick s).phy n)
      (logPrim (.rd 0x43 (rxRead s.cfg (envTick s).phy n))
        { envTick s with phy := { (envTick s).phy with rx := (envTick s).phy.rx.drop n } }) := by
  simp [busRead, h, phyRead, answered, answeredBytes]

/-- A FIFO read answers exactly `n` bytes (R174). -/
theorem rxRead_length (cfg : Cfg) (p : Phy) (n : Nat) : (rxRead cfg p n).length = n := by
  simp [rxRead]; omega

/-- A completed read-modify-write of an `R/W` register: the register takes the stored bits of the value written, whose
actions are performed; the trace has the read and the write (R12, R82). -/
theorem rmw_rw {op addr clear set : Byte} {info : RegInfo} {s : State} (h : BusCompletes s)
    (hi : regInfo addr.toNat = some info) (ha : info.access = .readWrite) (hf : addr ≠ 0x43) :
    evalOp (rmw op addr clear set) s = .ok ()
      (logPrim (.wr addr [(regRead s.phy.regs addr.toNat &&& ~~~clear) ||| set])
        { envTick (logPrim (.rd addr [regRead s.phy.regs addr.toNat]) (envTick s)) with
          phy := writeAction s.cfg addr ((regRead s.phy.regs addr.toNat &&& ~~~clear) ||| set)
            { (envTick (logPrim (.rd addr [regRead s.phy.regs addr.toNat]) (envTick s))).phy with
              regs := regWrite s.phy.regs addr.toNat
                (storedBits info ((regRead s.phy.regs addr.toNat &&& ~~~clear) ||| set)) } }) := by
  have h2 : BusCompletes (logPrim (.rd addr [regRead s.phy.regs addr.toNat]) (envTick s)) := h.of_tail (by simp)
  simp only [rmw, evalOp_bind, readReg_rw h.fate hi ha hf, writeReg_rw h2.fate hi ha hf, logPrim_phy, logPrim_cfg,
    envTick_cfg, envTick_regs]

/-- Writing a register's actions changes no register. -/
@[simp] theorem writeAction_regs (cfg : Cfg) (a v : Byte) (p : Phy) : (writeAction cfg a v p).regs = p.regs := by
  simp only [writeAction]
  repeat' split
  all_goals rfl

/-- In a memory of mapped registers a register's `W/C` and reserved bits read 0 (R34, R63). -/
theorem RegsMapped.read {m : Memory} (h : RegsMapped m) {a : Nat} {info : RegInfo} (hi : regInfo a = some info) :
    regRead m a &&& (info.act ||| info.zero) = 0 := by
  induction m with
  | nil =>
    simp only [regRead, regReset, hi]
    have hm : info ∈ phyMap := List.mem_of_find?_eq_some hi
    have all : ∀ r ∈ phyMap, r.reset &&& (r.act ||| r.zero) = 0 := by decide
    exact all _ hm
  | cons c rest ih =>
    obtain ⟨k, v⟩ := c
    simp only [regRead]
    split
    · next hk =>
      obtain ⟨inf, hm, ha, _, hz⟩ := h (k, v) (by simp)
      have uniq : ∀ r ∈ phyMap, regInfo r.addr = some r := by decide
      have hu := uniq inf hm
      rw [ha, hk, hi] at hu
      cases hu
      exact hz
    · exact ih fun c hc => h c (by simp [hc])

/-! ## With an empty schedule -/

/-- A schedule with nothing in it completes everything. -/
theorem BusCompletes.of_quiet {s : State} (h : s.env = []) : BusCompletes s := by simp [BusCompletes, h]

/-- A read of an `R/W` register, nothing else happening. -/
theorem readReg_quiet {op addr : Byte} {info : RegInfo} {s : State} (h : s.env = [])
    (hi : regInfo addr.toNat = some info) (ha : info.access = .readWrite) (hf : addr ≠ 0x43) :
    evalOp (readReg op addr) s = .ok (regRead s.phy.regs addr.toNat) (logPrim (.rd addr [regRead s.phy.regs addr.toNat]) s) := by
  rw [readReg_rw (BusCompletes.of_quiet h).fate hi ha hf, envTick_quiet h]

/-- A write of an `R/W` register, nothing else happening. -/
theorem writeReg_quiet {op addr v : Byte} {info : RegInfo} {s : State} (h : s.env = [])
    (hi : regInfo addr.toNat = some info) (ha : info.access = .readWrite) (hf : addr ≠ 0x43) :
    evalOp (writeReg op addr v) s = .ok ()
      (logPrim (.wr addr [v]) { s with
        phy := writeAction s.cfg addr v { s.phy with regs := regWrite s.phy.regs addr.toNat (storedBits info v) } }) := by
  rw [writeReg_rw (BusCompletes.of_quiet h).fate hi ha hf, envTick_quiet h]

/-- A read-modify-write, nothing else happening. -/
theorem rmw_quiet {op addr clear set : Byte} {info : RegInfo} {s : State} (h : s.env = [])
    (hi : regInfo addr.toNat = some info) (ha : info.access = .readWrite) (hf : addr ≠ 0x43) :
    evalOp (rmw op addr clear set) s = .ok ()
      (logPrim (.wr addr [(regRead s.phy.regs addr.toNat &&& ~~~clear) ||| set])
        { logPrim (.rd addr [regRead s.phy.regs addr.toNat]) s with
          phy := writeAction s.cfg addr ((regRead s.phy.regs addr.toNat &&& ~~~clear) ||| set)
            { s.phy with
              regs := regWrite s.phy.regs addr.toNat
                (storedBits info ((regRead s.phy.regs addr.toNat &&& ~~~clear) ||| set)) } }) := by
  have h2 : (logPrim (.rd addr [regRead s.phy.regs addr.toNat]) s).env = [] := h
  rw [rmw_rw (BusCompletes.of_quiet h) hi ha hf, envTick_quiet h, envTick_quiet h2]
  rfl

/-- A FIFO write, nothing else happening. -/
theorem memWrite_fifo_quiet {op : Byte} {v : List Byte} {s : State} (h : s.env = []) (hr : TxRoom v.length s) :
    evalOp (memWrite op 0x43 v) s = .ok () (logPrim (.wr 0x43 v) { s with phy := { s.phy with tx := s.phy.tx ++ v } }) := by
  rw [memWrite_fifo (BusCompletes.of_quiet h).fate hr, envTick_quiet h]

/-- A FIFO read, nothing else happening. -/
theorem memRead_fifo_quiet {op : Byte} {n : Nat} {s : State} (h : s.env = []) :
    evalOp (memRead op 0x43 n) s = .ok (rxRead s.cfg s.phy n)
      (logPrim (.rd 0x43 (rxRead s.cfg s.phy n)) { s with phy := { s.phy with rx := s.phy.rx.drop n } }) := by
  rw [memRead_fifo (BusCompletes.of_quiet h).fate, envTick_quiet h]

/-- A FIFO read of bytes that are there. -/
theorem rxRead_append (cfg : Cfg) (p : Phy) {n : Nat} {bs rest : List Byte} (hr : p.rx = bs ++ rest) (hn : bs.length = n) :
    rxRead cfg p n = bs := by
  subst hn
  simp [rxRead, hr]

end Sys2Proof.Machine
end

