-- ==== Sys2Proof/Laws/Moved.lean ====
section
/-! SUPPORT. What transactions, waits and events leave alone: between two states of a run only the PHY, the trace and the
schedule move (R23, R24: no session field is written but by the rules that name it). -/

namespace Sys2Proof.Machine

/-- From `s` to `t` only the PHY, the schedule, the draws and the trace moved; the trace by `ps`. -/
structure Moved (ps : List Prim) (s t : State) : Prop where
  cfg : t.cfg = s.cfg
  ctl : t.ctl = s.ctl
  notes : t.notes = s.notes
  running : t.running = s.running
  lastError : t.lastError = s.lastError
  ses : t.ses = s.ses
  scan : t.scan = s.scan
  diag : t.diag = s.diag
  stops : t.stops = s.stops
  selects : t.selects = s.selects
  validates : t.validates = s.validates
  port : t.port = s.port
  result : t.result = s.result
  trace : t.trace = s.trace ++ ps
  env : ∃ k, t.env = s.env.drop k

theorem Moved.refl (s : State) : Moved [] s s :=
  ⟨rfl, rfl, rfl, rfl, rfl, rfl, rfl, rfl, rfl, rfl, rfl, rfl, rfl, by simp, 0, rfl⟩

theorem Moved.trans {ps qs : List Prim} {s t u : State} (h : Moved ps s t) (k : Moved qs t u) : Moved (ps ++ qs) s u := by
  refine ⟨k.cfg.trans h.cfg, k.ctl.trans h.ctl, k.notes.trans h.notes, k.running.trans h.running,
    k.lastError.trans h.lastError, k.ses.trans h.ses, k.scan.trans h.scan, k.diag.trans h.diag, k.stops.trans h.stops, k.selects.trans h.selects, k.validates.trans h.validates,
    k.port.trans h.port, k.result.trans h.result, by rw [k.trace, h.trace, List.append_assoc], ?_⟩
  obtain ⟨m, hm⟩ := h.env
  obtain ⟨n, hn⟩ := k.env
  exact ⟨m + n, by rw [hn, hm, List.drop_drop]⟩

theorem Moved.bus {ps : List Prim} {s t : State} (h : Moved ps s t) (hb : BusCompletes s) : BusCompletes t := by
  obtain ⟨k, hk⟩ := h.env
  intro e he
  rw [hk] at he
  exact hb e (List.mem_of_mem_drop he)

theorem Moved.steady {ps : List Prim} {s t : State} (h : Moved ps s t) (hl : LevelsSteady s) : LevelsSteady t := by
  obtain ⟨k, hk⟩ := h.env
  intro e he
  rw [hk] at he
  exact hl e (List.mem_of_mem_drop he)

theorem Moved.quiet {ps : List Prim} {s t : State} (h : Moved ps s t) (he : s.env = []) : t.env = [] := by
  obtain ⟨k, hk⟩ := h.env
  rw [hk, he, List.drop_nil]

theorem Moved.block {ps : List Prim} {s t : State} (h : Moved ps s t) : KeepsBlock s t :=
  ⟨h.cfg, h.ctl, h.notes, h.running, h.lastError, h.scan, h.stops, h.selects, h.validates, h.port⟩

/-- The environment's changes. -/
theorem moved_envTick (s : State) : Moved [] s (envTick s) := by
  refine ⟨?_, ?_, ?_, ?_, ?_, ?_, ?_, ?_, ?_, ?_, ?_, ?_, ?_, ?_, 1, ?_⟩ <;> simp

/-- A change of the PHY alone. -/
theorem moved_phy (s : State) (p : Phy) : Moved [] s { s with phy := p } :=
  ⟨rfl, rfl, rfl, rfl, rfl, rfl, rfl, rfl, rfl, rfl, rfl, rfl, rfl, by simp, 0, rfl⟩

/-- A primitive recorded. -/
theorem moved_logPrim (p : Prim) (s : State) : Moved [p] s (logPrim p s) :=
  ⟨rfl, rfl, rfl, rfl, rfl, rfl, rfl, rfl, rfl, rfl, rfl, rfl, rfl, rfl, 0, rfl⟩

/-- A wait. -/
theorem moved_wait (d : Nat) (s : State) : Moved [.wait d] s (logPrim (.wait d) (passTime d s)) :=
  ⟨rfl, rfl, rfl, rfl, rfl, rfl, rfl, rfl, rfl, rfl, rfl, rfl, rfl, rfl, 0, rfl⟩

/-! ## Completed transactions -/

/-- What the environment's changes leave in the PHY, and what an empty schedule leaves. -/
structure Ticked (p q : Phy) : Prop where
  regs : q.regs = p.regs
  settle : q.settle = p.settle
  tx : q.tx.length ≤ p.tx.length

theorem ticked_envTick (s : State) : Ticked s.phy (envTick s).phy :=
  ⟨envTick_regs s, envTick_settle s, envTick_tx_length s⟩

/-- A read of an `R/W` register: what it answers and what moves. -/
theorem readReg_moves (op : Byte) {addr : Byte} {info : RegInfo} {s : State} (hb : BusCompletes s)
    (hi : regInfo addr.toNat = some info) (ha : info.access = .readWrite) (hf : addr ≠ 0x43) :
    ∃ t, evalOp (readReg op addr) s = .ok (regRead s.phy.regs addr.toNat) t ∧
      Moved [.rd addr [regRead s.phy.regs addr.toNat]] s t ∧ t.phy = (envTick s).phy :=
  ⟨_, readReg_rw hb.fate hi ha hf, (moved_envTick s).trans (moved_logPrim _ _), rfl⟩

/-- A write of an `R/W` register: what it stores and what moves. -/
theorem writeReg_moves (op : Byte) {addr : Byte} (v : Byte) {info : RegInfo} {s : State} (hb : BusCompletes s)
    (hi : regInfo addr.toNat = some info) (ha : info.access = .readWrite) (hf : addr ≠ 0x43) :
    ∃ t, evalOp (writeReg op addr v) s = .ok () t ∧ Moved [.wr addr [v]] s t ∧
      t.phy = writeAction s.cfg addr v { (envTick s).phy with
        regs := regWrite s.phy.regs addr.toNat (storedBits info v) } :=
  ⟨_, writeReg_rw hb.fate hi ha hf, ((moved_envTick s).trans (moved_phy _ _)).trans (moved_logPrim _ _), rfl⟩

/-- A read-modify-write of an `R/W` register: what it stores and what moves. -/
theorem rmw_moves (op : Byte) {addr : Byte} (clear set : Byte) {info : RegInfo} {s : State} (hb : BusCompletes s)
    (hi : regInfo addr.toNat = some info) (ha : info.access = .readWrite) (hf : addr ≠ 0x43) :
    ∃ t p, evalOp (rmw op addr clear set) s = .ok () t ∧
      Moved [.rd addr [regRead s.phy.regs addr.toNat],
        .wr addr [(regRead s.phy.regs addr.toNat &&& ~~~clear) ||| set]] s t ∧
      Ticked s.phy p ∧ (LevelsSteady s → p.cc1 = s.phy.cc1 ∧ p.cc2 = s.phy.cc2) ∧ (s.env = [] → p = s.phy) ∧
      t.phy = writeAction s.cfg addr ((regRead s.phy.regs addr.toNat &&& ~~~clear) ||| set)
        { p with
          regs := regWrite s.phy.regs addr.toNat
            (storedBits info ((regRead s.phy.regs addr.toNat &&& ~~~clear) ||| set)) } := by
  have m1 := (moved_envTick s).trans (moved_logPrim (.rd addr [regRead s.phy.regs addr.toNat]) (envTick s))
  have k1 := ticked_envTick s
  have k2 := ticked_envTick (logPrim (.rd addr [regRead s.phy.regs addr.toNat]) (envTick s))
  refine ⟨_, _, rmw_rw hb hi ha hf, ?_, ?_, fun hl => ?_, fun he => ?_, rfl⟩
  · exact ((m1.trans (moved_envTick _)).trans (moved_phy _ _)).trans (moved_logPrim _ _)
  · exact ⟨k2.regs.trans k1.regs, k2.settle.trans k1.settle, Nat.le_trans k2.tx k1.tx⟩
  · have l1 := envTick_levels hl
    have l2 := envTick_levels (m1.steady hl)
    exact ⟨l2.1.trans l1.1, l2.2.trans l1.2⟩
  · rw [envTick_quiet (m1.quiet he), logPrim_phy, envTick_quiet he]

/-- A FIFO write: what it appends and what moves. -/
theorem memWrite_fifo_moves (op : Byte) {v : List Byte} {s : State} (hb : BusCompletes s) (hr : TxRoom v.length s) :
    ∃ t, evalOp (memWrite op 0x43 v) s = .ok () t ∧ Moved [.wr 0x43 v] s t ∧
      t.phy = { (envTick s).phy with tx := (envTick s).phy.tx ++ v } :=
  ⟨_, memWrite_fifo hb.fate hr, ((moved_envTick s).trans (moved_phy _ _)).trans (moved_logPrim _ _), rfl⟩

/-- A FIFO read: what it answers and what moves. -/
theorem memRead_fifo_moves (op : Byte) {n : Nat} {s : State} (hb : BusCompletes s) :
    ∃ t, evalOp (memRead op 0x43 n) s = .ok (rxRead s.cfg (envTick s).phy n) t ∧
      Moved [.rd 0x43 (rxRead s.cfg (envTick s).phy n)] s t ∧
      t.phy = { (envTick s).phy with rx := (envTick s).phy.rx.drop n } :=
  ⟨_, memRead_fifo hb.fate, ((moved_envTick s).trans (moved_phy _ _)).trans (moved_logPrim _ _), rfl⟩

end Sys2Proof.Machine
end

