-- ==== Sys2Proof/Laws/Steps.lean ====
section
/-! SUPPORT. Running an operation one primitive at a time (R20) and to its end are the same run; what every part of an
operation keeps, the whole keeps; and how many reads of a scan are written down changes no run that ends (R201, log 18). -/

namespace Sys2Proof.Machine

/-! ## What every part of an operation does -/

/-- Every reading, register write and primitive of an operation, completed or failed, relates the state before to the state
after by `R`; and it is not within a primitive that the operation is unfinished (log 18). -/
def OpAll {α : Type} (R : State → State → Prop) : Op α → Prop
  | .done _ => True
  | .exit _ => True
  | .halt _ => True
  | .conf k => ∀ c, OpAll R (k c)
  | .see f k => (∀ s, R s (f s).2) ∧ ∀ v, OpAll R (k v)
  | .change f k => (∀ s, R s (f s)) ∧ OpAll R k
  | .prim f k => ((∀ s v t, f s = .ok v t → R s t) ∧ ∀ s x t, f s = .exit x t → R s t ∧ x ≠ .unfinished) ∧ ∀ v, OpAll R (k v)

variable {α β : Type} {R : State → State → Prop}

/-- A sequence of such operations is one. -/
theorem OpAll.bind {m : Op α} {f : α → Op β} (hm : OpAll R m) (hf : ∀ a, OpAll R (f a)) : OpAll R (opBind m f) := by
  induction m with
  | done a => exact hf a
  | exit x => exact hm
  | halt h => exact hm
  | conf k ih => exact fun c => ih c (hm c)
  | see g k ih => exact ⟨hm.1, fun v => ih v (hm.2 v)⟩
  | change g k ih => exact ⟨hm.1, ih hm.2⟩
  | prim g k ih => exact ⟨hm.1, fun v => ih v (hm.2 v)⟩

theorem OpAll.seq {m : Op α} {k : Op β} (hm : OpAll R m) (hk : OpAll R k) : OpAll R (opSeq m k) :=
  hm.bind fun _ => hk

/-- A primitive is such an operation if its effect is. -/
theorem OpAll.ofPrim {put : α → Val} {get : Val → α} {f : State → Res α} (h : ∀ s a t, f s = .ok a t → R s t)
    (hx : ∀ s x t, f s = .exit x t → R s t ∧ x ≠ .unfinished) : OpAll R (opPrim put get f) := by
  refine ⟨⟨fun s v t hs => ?_, fun s x t hs => ?_⟩, fun _ => trivial⟩
  · cases hf : f s with
    | ok a u => simp only [hf] at hs; cases hs; exact h s a _ hf
    | exit y u => simp only [hf] at hs; cases hs
    | halt y => simp only [hf] at hs; cases hs
  · cases hf : f s with
    | ok a u => simp only [hf] at hs; cases hs
    | exit y u => simp only [hf] at hs; cases hs; exact hx s _ _ hf
    | halt y => simp only [hf] at hs; cases hs

theorem OpAll.ofSee {put : α → Val} {get : Val → α} {f : State → α × State} (h : ∀ s, R s (f s).2) :
    OpAll R (opSee put get f) := ⟨h, fun _ => trivial⟩

theorem OpAll.modify {f : State → State} (h : ∀ s, R s (f s)) : OpAll R (opModify f) := ⟨h, trivial⟩

/-- What is left of such an operation is one. -/
theorem OpAll.after {m : Op α} (hm : OpAll R m) (c : Cfg) (notes : List Note) : OpAll R (opAfter c m notes) := by
  induction m generalizing notes with
  | done a => exact hm
  | exit x => exact hm
  | halt h => exact hm
  | conf k ih => exact ih c (hm c) notes
  | see g k ih =>
    cases notes with
    | nil => exact hm
    | cons n rest => exact ih _ (hm.2 _) rest
  | change g k ih => exact ih hm.2 notes
  | prim g k ih =>
    cases notes with
    | nil => exact hm
    | cons n rest => exact ih _ (hm.2 _) rest

/-- The end of a result: the state it leaves, if it leaves one. -/
def resState : Res α → Option State
  | .ok _ t => some t
  | .exit _ t => some t
  | .halt _ => none

/-- What every part keeps, a run to the end keeps. -/
theorem OpAll.eval (refl : ∀ s, R s s) (trans : ∀ s t u, R s t → R t u → R s u) {m : Op α} (hm : OpAll R m) {s t : State}
    (h : resState (evalOp m s) = some t) : R s t := by
  induction m generalizing s with
  | done a => simp only [evalOp, resState] at h; cases h; exact refl _
  | exit x => simp only [evalOp, resState] at h; cases h; exact refl _
  | halt x => simp only [evalOp, resState] at h; cases h
  | conf k ih => exact ih s.cfg (hm s.cfg) h
  | see g k ih => exact trans _ _ _ (hm.1 s) (ih _ (hm.2 _) h)
  | change g k ih => exact trans _ _ _ (hm.1 s) (ih hm.2 h)
  | prim g k ih =>
    simp only [evalOp] at h
    cases hg : g s with
    | ok v u => rw [hg] at h; exact trans _ _ _ (hm.1.1 s v u hg) (ih v (hm.2 v) h)
    | exit x u => rw [hg] at h; cases h; exact (hm.1.2 s x _ hg).1
    | halt x => rw [hg] at h; cases h

/-- The state a part of a run leaves, if it leaves one. -/
def partState : Part α → Option State
  | .ended r => resState r
  | .before _ t => some t

/-- What every part keeps, a run of some primitives keeps. -/
theorem OpAll.prims (refl : ∀ s, R s s) (trans : ∀ s t u, R s t → R t u → R s u) {m : Op α} (hm : OpAll R m) {n : Nat}
    {notes : List Note} {s t : State} (h : partState (runPrims m n notes s) = some t) : R s t := by
  induction m generalizing n notes s with
  | done a => simp only [runPrims, partState, resState] at h; cases h; exact refl _
  | exit x => simp only [runPrims, partState, resState] at h; cases h; exact refl _
  | halt x => simp only [runPrims, partState, resState] at h; cases h
  | conf k ih => exact ih s.cfg (hm s.cfg) h
  | see g k ih => exact trans _ _ _ (hm.1 s) (ih _ (hm.2 _) h)
  | change g k ih => exact trans _ _ _ (hm.1 s) (ih hm.2 h)
  | prim g k ih =>
    cases n with
    | zero => simp only [runPrims, partState] at h; cases h; exact refl _
    | succ n =>
      simp only [runPrims] at h
      cases hg : g s with
      | ok v u => rw [hg] at h; exact trans _ _ _ (hm.1.1 s v u hg) (ih v (hm.2 v) h)
      | exit x u => rw [hg] at h; cases h; exact (hm.1.2 s x _ hg).1
      | halt x => rw [hg] at h; cases h

/-! ## Some primitives and all of them -/

/-- A run of some primitives that reaches the end is the whole run. -/
theorem runPrims_ended {m : Op α} {n : Nat} {notes : List Note} {s : State} {r : Res α}
    (h : runPrims m n notes s = .ended r) : evalOp m s = r := by
  induction m generalizing n notes s with
  | done a => cases h; rfl
  | exit x => cases h; rfl
  | halt x => cases h; rfl
  | conf k ih => exact ih s.cfg h
  | see g k ih => exact ih _ h
  | change g k ih => exact ih h
  | prim g k ih =>
    cases n with
    | zero => cases h
    | succ n =>
      simp only [runPrims] at h
      simp only [evalOp]
      cases hg : g s with
      | ok v u => rw [hg] at h; exact ih v h
      | exit x u => rw [hg] at h; cases h; rfl
      | halt x => rw [hg] at h; cases h; rfl

/-- What is left after a position, in two parts. -/
theorem opAfter_append (c : Cfg) (m : Op α) (us vs : List Note) :
    opAfter c m (us ++ vs) = opAfter c (opAfter c m us) vs := by
  induction m generalizing us with
  | done a => rfl
  | exit x => rfl
  | halt x => rfl
  | conf k ih => exact ih c us
  | change g k ih => exact ih us
  | see g k ih =>
    cases us with
    | nil => rfl
    | cons u rest => exact ih _ rest
  | prim g k ih =>
    cases us with
    | nil => rfl
    | cons u rest => exact ih _ rest

/-- A run of some primitives that stops before another: the position grew, by an entry for each primitive, and what is left of
the operation ends as the whole does (R20). -/
theorem runPrims_before {m : Op α} (hm : OpAll (fun s t => t.cfg = s.cfg) m) {n : Nat} {notes rest : List Note}
    {s t : State} (h : runPrims m n notes s = .before rest t) :
    ∃ us, rest = notes ++ us ∧ position us = n ∧ evalOp (opAfter s.cfg m us) t = evalOp m s := by
  induction m generalizing n notes s with
  | done a => cases h
  | exit x => cases h
  | halt x => cases h
  | conf k ih => exact ih s.cfg (hm s.cfg) h
  | see g k ih =>
    obtain ⟨us, hr, hp, he⟩ := ih _ (hm.2 _) h
    refine ⟨.saw (g s).1 :: us, by rw [hr]; simp, hp, ?_⟩
    rw [hm.1 s] at he
    exact he
  | change g k ih =>
    obtain ⟨us, hr, hp, he⟩ := ih hm.2 h
    rw [hm.1 s] at he
    exact ⟨us, hr, hp, he⟩
  | prim g k ih =>
    cases n with
    | zero => cases h; exact ⟨[], by simp, rfl, rfl⟩
    | succ n =>
      simp only [runPrims] at h
      cases hg : g s with
      | ok v u =>
        rw [hg] at h
        obtain ⟨us, hr, hp, he⟩ := ih v (hm.2 v) h
        refine ⟨.did v :: us, by rw [hr]; simp, ?_, ?_⟩
        · simp only [position, List.filter_cons_of_pos, List.length_cons] at hp ⊢; rw [hp]
        · rw [hm.1.1 s v u hg] at he
          simp only [evalOp, hg]
          exact he
      | exit x u => rw [hg] at h; cases h
      | halt x => rw [hg] at h; cases h

/-! ## Scans written down for more reads (R201, log 18) -/

/-- The same operation, written down further, from a primitive on, where it is unfinished. -/
inductive Deeper {α : Type} : Op α → Op α → Prop where
  | more (f : State → Res Val) (k : Val → Op α) : Deeper (.exit .unfinished) (.prim f k)
  | done (a : α) : Deeper (.done a) (.done a)
  | exit (x : Exit) : Deeper (.exit x) (.exit x)
  | halt (h : Halt) : Deeper (.halt h) (.halt h)
  | conf {k l : Cfg → Op α} (h : ∀ c, Deeper (k c) (l c)) : Deeper (.conf k) (.conf l)
  | see (f : State → Val × State) {k l : Val → Op α} (h : ∀ v, Deeper (k v) (l v)) : Deeper (.see f k) (.see f l)
  | change (f : State → State) {k l : Op α} (h : Deeper k l) : Deeper (.change f k) (.change f l)
  | prim (f : State → Res Val) {k l : Val → Op α} (h : ∀ v, Deeper (k v) (l v)) : Deeper (.prim f k) (.prim f l)

theorem Deeper.refl (m : Op α) : Deeper m m := by
  induction m with
  | done a => exact .done a
  | exit x => exact .exit x
  | halt x => exact .halt x
  | conf k ih => exact .conf ih
  | see f k ih => exact .see f ih
  | change f k ih => exact .change f ih
  | prim f k ih => exact .prim f ih

theorem Deeper.bind {m n : Op α} {f g : α → Op β} (hm : Deeper m n) (hf : ∀ a, Deeper (f a) (g a)) :
    Deeper (opBind m f) (opBind n g) := by
  induction hm with
  | more g k => exact .more g _
  | done a => exact hf a
  | exit x => exact .exit x
  | halt x => exact .halt x
  | conf _ ih => exact .conf ih
  | see f _ ih => exact .see f ih
  | change f _ ih => exact .change f ih
  | prim f _ ih => exact .prim f ih

theorem Deeper.seq {m n : Op α} {k l : Op β} (hm : Deeper m n) (hk : Deeper k l) : Deeper (opSeq m k) (opSeq n l) :=
  hm.bind fun _ => hk

/-- What ends, ends the same written down further. -/
theorem Deeper.evalOp {m n : Op α} (h : Deeper m n) {s : State} (hs : ∀ t, evalOp m s ≠ .exit .unfinished t) :
    evalOp n s = evalOp m s := by
  induction h generalizing s with
  | more g k => exact absurd rfl (hs s)
  | done a => rfl
  | exit x => rfl
  | halt x => rfl
  | conf _ ih => exact ih s.cfg hs
  | see f _ ih => exact ih _ hs
  | change f _ ih => exact ih hs
  | prim f _ ih =>
    simp only [Machine.evalOp] at hs ⊢
    cases hf : f s with
    | ok v u => rw [hf] at hs; exact ih v hs
    | exit x u => rfl
    | halt x => rfl

/-- What does not end goes on, written down further, from the position its run reached (R20). -/
theorem Deeper.after {m n : Op α} (h : Deeper m n) (hm : OpAll (fun s t => t.cfg = s.cfg) m) {s t : State}
    (hs : Machine.evalOp m s = .exit .unfinished t) :
    Machine.evalOp (opAfter s.cfg n (trail m s)) t = Machine.evalOp n s := by
  induction h generalizing s with
  | more g k => cases hs; rfl
  | done a => cases hs
  | exit x => cases hs; rfl
  | halt x => cases hs
  | conf _ ih => exact ih s.cfg (hm s.cfg) hs
  | see f _ ih =>
    have he := ih _ (hm.2 _) hs
    rw [hm.1 s] at he
    exact he
  | change f _ ih =>
    have he := ih hm.2 hs
    rw [hm.1 s] at he
    exact he
  | prim f _ ih =>
    simp only [Machine.evalOp] at hs
    cases hf : f s with
    | ok v u =>
      rw [hf] at hs
      have he := ih v (hm.2 v) hs
      rw [hm.1.1 s v u hf] at he
      simp only [trail, Machine.evalOp, hf]
      exact he
    | exit x u => rw [hf] at hs; cases hs; exact absurd rfl (hm.1.2 s _ _ hf).2
    | halt x => rw [hf] at hs; cases hs

/-- More reads of a scan write it down further. -/
theorem opScan_deeper {i j : Nat} (h : i ≤ j) : Deeper (opScan i) (opScan j) := by
  induction i generalizing j with
  | zero =>
    cases j with
    | zero => exact .exit _
    | succ j => exact .more _ _
  | succ i ih =>
    obtain ⟨j, rfl⟩ : ∃ k, j = k + 1 := ⟨j - 1, by omega⟩
    refine (Deeper.refl _).bind fun bs => ?_
    simp only
    split
    · exact .refl _
    · exact (Deeper.refl _).seq (ih (by omega))

theorem opParseMessage_deeper {i j : Nat} (h : i ≤ j) : Deeper (opParseMessage i) (opParseMessage j) :=
  (Deeper.refl _).seq ((opScan_deeper h).bind fun _ => .refl _)

theorem opRxStep_deeper {i j : Nat} (h : i ≤ j) : Deeper (opRxStep i) (opRxStep j) := by
  refine (Deeper.refl _).bind fun st => ?_
  split
  · exact .refl _
  · exact (opParseMessage_deeper h).bind fun _ => .refl _

theorem opPollIteration_deeper {i j : Nat} (h : i ≤ j) : Deeper (opPollIteration i) (opPollIteration j) :=
  (opRxStep_deeper h).seq (.refl _)

theorem opRunFlow_deeper {i j : Nat} (h : i ≤ j) : Deeper (opRunFlow i) (opRunFlow j) :=
  (Deeper.refl _).bind fun _ => (Deeper.refl _).seq ((opPollIteration_deeper h).bind fun _ => .refl _)

theorem opSuper_deeper {i j : Nat} (h : i ≤ j) (c : Ctl) : Deeper (opSuper i c) (opSuper j c) := by
  cases c with
  | flow role phase =>
    refine Deeper.bind ?_ fun _ => .refl _
    simp only [opFlowPhase]
    split
    · exact (opRxStep_deeper h).seq (.refl _)
    all_goals exact .refl _
  | _ => exact .refl _

/-! ## One primitive of a scan, however far it is written down -/

/-- Two operations that are the same for at least so many primitives. -/
inductive Agree {α : Type} : Nat → Op α → Op α → Prop where
  | refl (i : Nat) (m : Op α) : Agree i m m
  | far (m n : Op α) : Agree 0 m n
  | conf {i : Nat} {k l : Cfg → Op α} (h : ∀ c, Agree i (k c) (l c)) : Agree i (.conf k) (.conf l)
  | see {i : Nat} (f : State → Val × State) {k l : Val → Op α} (h : ∀ v, Agree i (k v) (l v)) :
      Agree i (.see f k) (.see f l)
  | change {i : Nat} (f : State → State) {k l : Op α} (h : Agree i k l) : Agree i (.change f k) (.change f l)
  | prim {i : Nat} (f : State → Res Val) {k l : Val → Op α} (h : ∀ v, Agree i (k v) (l v)) :
      Agree (i + 1) (.prim f k) (.prim f l)

/-- For fewer primitives they are the same too. -/
theorem Agree.mono {m n : Op α} {i j : Nat} (h : Agree i m n) (hj : j ≤ i) : Agree j m n := by
  induction h generalizing j with
  | refl i m => exact .refl j m
  | far m n => obtain rfl : j = 0 := by omega
               exact .far m n
  | conf _ ih => exact .conf fun c => ih c hj
  | see f _ ih => exact .see f fun v => ih v hj
  | change f _ ih => exact .change f (ih hj)
  | prim f _ ih =>
    cases j with
    | zero => exact .far _ _
    | succ j => exact .prim f fun v => ih v (by omega)

theorem Agree.bind {m n : Op α} {f g : α → Op β} {i : Nat} (hm : Agree i m n) (hf : ∀ a, Agree i (f a) (g a)) :
    Agree i (opBind m f) (opBind n g) := by
  induction hm with
  | refl i m =>
    induction m generalizing i with
    | done a => exact hf a
    | exit x => exact .refl _ _
    | halt x => exact .refl _ _
    | conf k ih => exact .conf fun c => ih c i hf
    | see f k ih => exact .see f fun v => ih v i hf
    | change f k ih => exact .change f (ih i hf)
    | prim f k ih =>
      cases i with
      | zero => exact .far _ _
      | succ i => exact .prim f fun v => ih v i fun a => (hf a).mono (by omega)
  | far m n => exact .far _ _
  | conf _ ih => exact .conf fun c => ih c hf
  | see f _ ih => exact .see f fun v => ih v hf
  | change f _ ih => exact .change f (ih hf)
  | prim f _ ih => exact .prim f fun v => ih v fun a => (hf a).mono (by omega)

theorem Agree.seq {m n : Op α} {k l : Op β} {i : Nat} (hm : Agree i m n) (hk : Agree i k l) :
    Agree i (opSeq m k) (opSeq n l) := hm.bind fun _ => hk

/-- Behind a position they are the same for the primitives it leaves. -/
theorem Agree.after {m n : Op α} {i : Nat} {us : List Note} (h : Agree (i + us.length) m n) (c : Cfg) :
    Agree i (opAfter c m us) (opAfter c n us) := by
  generalize hj : i + us.length = j at h
  induction h generalizing i us with
  | refl j m => exact .refl _ _
  | far m n => obtain rfl : i = 0 := by omega
               exact .far _ _
  | conf _ ih => exact ih c hj
  | change f _ ih => exact ih hj
  | @see j f k l h ih =>
    cases us with
    | nil => exact (Agree.see f h).mono (by simp only [List.length_nil] at hj; omega)
    | cons u rest =>
      simp only [List.length_cons] at hj
      exact (ih _ (i := i + 1) (us := rest) (by omega)).mono (by omega)
  | @prim j f k l h ih =>
    cases us with
    | nil => exact (Agree.prim f h).mono (by simp only [List.length_nil] at hj; omega)
    | cons u rest => exact ih _ (by simp only [List.length_cons] at hj; omega)

/-- So many primitives are the same run of both. -/
theorem Agree.prims {m n : Op α} {i : Nat} (h : Agree (i + 1) m n) (notes : List Note) (s : State) :
    runPrims m i notes s = runPrims n i notes s := by
  generalize hj : i + 1 = j at h
  induction h generalizing i notes s with
  | refl j m => rfl
  | far m n => omega
  | conf _ ih => exact ih s.cfg notes s hj
  | see f _ ih => exact ih _ _ _ hj
  | change f _ ih => exact ih notes (f s) hj
  | prim f _ ih =>
    cases i with
    | zero => rfl
    | succ i =>
      simp only [runPrims]
      cases f s with
      | ok v u => exact ih v _ _ (by omega)
      | _ => rfl

/-- Scans written down for `i` reads or more are the same for `i` primitives. -/
theorem opScan_agree {i a b : Nat} (ha : i ≤ a) (hb : i ≤ b) : Agree i (opScan a) (opScan b) := by
  induction i generalizing a b with
  | zero => exact .far _ _
  | succ i ih =>
    obtain ⟨a, rfl⟩ : ∃ k, a = k + 1 := ⟨a - 1, by omega⟩
    obtain ⟨b, rfl⟩ : ∃ k, b = k + 1 := ⟨b - 1, by omega⟩
    refine .prim _ fun v => .change _ ?_
    simp only [opPure, opBind]
    split
    · exact .refl _ _
    · exact (Agree.refl _ _).seq (ih (by omega) (by omega))

theorem opParseMessage_agree {i a b : Nat} (ha : i ≤ a) (hb : i ≤ b) : Agree i (opParseMessage a) (opParseMessage b) :=
  (Agree.refl _ _).seq ((opScan_agree ha hb).bind fun _ => .refl _ _)

theorem opRxStep_agree {i a b : Nat} (ha : i ≤ a) (hb : i ≤ b) : Agree i (opRxStep a) (opRxStep b) := by
  refine (Agree.refl _ _).bind fun st => ?_
  split
  · exact .refl _ _
  · exact (opParseMessage_agree ha hb).bind fun _ => .refl _ _

theorem opPollIteration_agree {i a b : Nat} (ha : i ≤ a) (hb : i ≤ b) : Agree i (opPollIteration a) (opPollIteration b) :=
  (opRxStep_agree ha hb).seq (.refl _ _)

theorem opUnderWay_agree {i a b : Nat} (ha : i ≤ a) (hb : i ≤ b) (s : State) : Agree i (opUnderWay a s) (opUnderWay b s) := by
  simp only [opUnderWay]
  split
  · next r _ =>
    split
    · exact .refl _ _
    · cases r with
      | parseMessage => exact (opParseMessage_agree ha hb).bind fun _ => .refl _ _
      | rxStep => exact (opRxStep_agree ha hb).seq (.refl _ _)
      | pollIteration => exact (opPollIteration_agree ha hb).bind fun _ => .refl _ _
  · cases s.ctl with
    | flow role phase =>
      refine Agree.bind ?_ fun _ => .refl _ _
      simp only [opFlowPhase]
      split
      · exact (opRxStep_agree ha hb).seq (.refl _ _)
      all_goals exact .refl _ _
    | _ => exact .refl _ _

/-- A step of the supervisor is the same for every scan written down for enough reads: it never comes to the end of what is
written (log 18). -/
theorem superStep_eq {s : State} {reads : Nat} (h : s.notes.length + 2 ≤ reads) :
    superStep s = superOutcome (runPrims (opLeft reads s) 1 s.notes s) := by
  have ha := opUnderWay_agree (Nat.le_refl _) h s
  simp only [superStep, currentOp, opLeft]
  refine congrArg superOutcome ?_
  split
  · next hn => exact (ha.mono (by omega)).prims _ _
  · next n notes hn =>
    rw [hn] at ha ⊢
    exact ((ha.mono (Nat.le_of_eq (by omega))).after s.cfg).prims _ _

end Sys2Proof.Machine
end

