-- ==== Sys2Proof/Tests/Slice0.lean ====
section
/-! SUPPORT. Tests: ill-formed instructions are refused; every row's encoding, written out from `30_encoding.md`, decodes
to its instruction; single steps against the vectors of `95_test_vectors.md` (named in each comment). -/

namespace Sys2Proof.Tests

-- One theorem at a time: kernel checks that wait for one another would each hold a thread.
set_option Elab.async false

open Sys2Proof Sys2Proof.Machine

/-! ## Well-formedness -/

/-- A header's other bits, all 0, on a primary-SOP frame. -/
def bits0 : MsgBits := ⟨.primary, 0, 0, 0, 0, 0⟩

/-- The header bits of `03 A3`: ID 1, bit 0 set, revision 2, data role 1. -/
def bits1 : MsgBits := ⟨.primary, 0, 1, 1, 2, 1⟩

/-- One data object too many. -/
def eight : List Word32 := List.replicate 8 0

/-- One byte too many for a one-byte count. -/
def long : List Byte := List.replicate 256 0

/-- One object too many for a one-byte count. -/
def longObjects : List Word32 := List.replicate 256 0

theorem test_wf_refuses_long_strings :
    [Instr.sendPacket long, .encodeCommand .accept long 0 0 0 0, .buildPdo .pps long,
      .buildVdmHeader (.unstructured 0 0) long, .buildVdmUnstructured 0 0 long, .sendCommand .accept long,
      .parsePdoList longObjects, .sinkSendRequest longObjects, .selectPdoForVoltage longObjects 5,
      .tokPacksym (List.replicate 32 0)].any Instr.wf = false := by
  have h : long.length = 256 := List.length_replicate
  have h' : longObjects.length = 256 := List.length_replicate
  simp [Instr.wf, h, h']

theorem test_wf_refuses_messages_of_eight_objects :
    [Instr.dispatch ⟨bits0, 1, eight⟩, .sinkOnSourceCaps ⟨bits0, 0, eight.tail⟩, .sinkOnVdm ⟨bits0, 0, eight.tail⟩,
      .sourceOnRequest ⟨bits0, 0, eight.tail⟩, .sourcePsRdy 0 ⟨bits0, 0, eight.tail⟩, .sourceAccept 7 0].any Instr.wf =
      false := by decide

theorem test_wf_refuses_data_headers_without_objects :
    [Instr.dataReserved0 bits0 0, .dataSourceCapabilities bits0 0, .dataRequest bits0 0, .dataBist bits0 0,
      .dataSinkCapabilities bits0 0, .dataBatteryStatus bits0 0, .dataAlert bits0 0, .dataGetCountryInfo bits0 0,
      .dataEnterUsb bits0 0, .dataEprRequest bits0 0, .dataEprMode bits0 0, .dataSourceInfo bits0 0,
      .dataRevision bits0 0, .dataReserved13 bits0 0, .dataReserved14 bits0 0, .dataVendorDefined bits0 0,
      .dataUnknown bits0 0 1].any Instr.wf = false := by decide

/-! ## Decoding: every row -/

/-- What the decoder reads. -/
def reads (f : Format) (bs : List Byte) : Option Instr := (decode f bs).toOption

theorem test_decode_operations_without_operands :
    [0x01, 0x02, 0x03, 0x04, 0x06, 0x0C, 0x0F, 0x10, 0x13, 0x14, 0x20, 0x30, 0x31, 0x33].map (fun c => reads .op [c]) =
      [Instr.reset, .resetPd, .powerOn, .unmaskInt, .currentLevel, .configPhy, .flushRx, .flushTx, .readInt, .readRxState,
        .parseMessage, .resetMsgId, .nextMsgId, .drainLog].map some := by decide

theorem test_decode_negotiation_operations_without_operands :
    [0x40, 0x41, 0x43, 0x44, 0x4F, 0x54, 0x55, 0x60, 0x61, 0x62, 0x63].map (fun c => reads .op [c]) =
      [Instr.pollIteration, .rxStep, .intStep, .detachCheck, .sourceAdvertise, .advCadence, .onSoftReset, .blockReset,
        .setup, .runFlow, .cancelRecover].map some := by decide

theorem test_decode_driver_operations_with_operands :
    [[0x05, 0x03], [0x07, 0x01], [0x08, 0x02, 0x00], [0x09, 0x01], [0x0A, 0x00], [0x0B, 0x03], [0x0D, 0x00, 0x01],
      [0x0D, 0x01, 0x02, 0x00], [0x0E, 0x02], [0x11, 0x01], [0x12, 0xA1], [0x15, 0x04],
      [0x16, 0x02, 0x03, 0xA3]].map (reads .op) =
      [Instr.measureCc 3, .detectSink true, .detectSource 2 false, .setTermination .source, .setRoleBits .sink,
        .setHostCurrent 3, .findCc (.sink true), .findCc (.source 2 false), .enableTxSwitch 2, .setWake true,
        .decodeInt 0xA1, .readFifo 4, .sendPacket [0x03, 0xA3]].map some := by decide

theorem test_decode_codec_operations_with_operands :
    [[0x21, 0, 1, 0, 2, 0, 0, 2], [0x22, 3, 0, 1, 2, 1, 1], [0x23, 0x96, 0x90, 0x01, 0x00],
      [0x24, 0x88, 0x13, 0, 0, 0xDC, 0x05, 0, 0, 0, 0, 0, 0, 0, 0, 0, 0], [0x25, 2, 1, 9],
      [0x26, 1, 0x96, 0x90, 0x01, 0x00], [0x27, 0x01, 0x80, 0x00, 0xFF], [0x28, 0, 0x01, 0xFF, 0, 0, 0, 1, 1, 4, 0],
      [0x29, 0x34, 0x12, 0x01, 0xFF, 0], [0x2A, 0, 0, 0, 0, 0xDC, 0x05, 0, 0], [0x2B, 0x96, 0x58, 0x02, 0x10],
      [0x2C, 1, 17]].map (reads .op) =
      [Instr.encodeHeader 0 1 0 2 0 0 2, .encodeCommand .accept [] 1 2 1 1, .parsePdo 0x00019096,
        .buildFixedPdo 5000 1500 0 0, .buildPdo .pps [9], .parsePdoList [0x00019096], .parseVdmHeader 0xFF008001,
        .buildVdmHeader (.structured 0xFF01 0 1 1 4) [], .buildVdmUnstructured 0xFF01 0x1234 [], .buildRequest 0 1500,
        .parseRequest 0x10025896, .typeLookup .data 17].map some := by decide

theorem test_decode_sequencer_and_message_operations :
    [[0x32, 34, 4, 0x96, 0x58, 0x02, 0x10], [0x42, 0, 0x03, 0xA3], [0x45, 0, 0x01, 0xA0, 0x96, 0x90, 0x01, 0x00],
      [0x46, 0], [0x47, 1, 0, 0x03, 0xA0], [0x48, 0, 0x03, 0xA0, 0x01, 0x80, 0x00, 0xFF],
      [0x50, 0, 0x03, 0xA0, 0x96, 0x58, 0x02, 0x10]].map (reads .op) =
      [Instr.sendCommand .request [0x96, 0x58, 0x02, 0x10], .dispatch ⟨bits1, 3, []⟩,
        .sinkOnSourceCaps ⟨⟨.primary, 0, 0, 1, 2, 1⟩, 0x00019096, []⟩, .sinkSendRequest [], .sinkOnAccept true bits1,
        .sinkOnVdm ⟨bits1, 0xFF008001, []⟩, .sourceOnRequest ⟨bits1, 0x10025896, []⟩].map some := by decide

theorem test_decode_responder_and_source_operations :
    [[0x49, 4, 1, 0x01, 0xFF], [0x4A, 4, 1, 0x01, 0xFF], [0x4B, 4, 1, 0x01, 0xFF], [0x4C, 4, 1, 0x01, 0xFF],
      [0x4D, 4, 1, 0x01, 0xFF], [0x4E, 4, 1, 0x01, 0xFF], [0x51, 6, 0x96, 0x90, 0x01, 0x00],
      [0x52, 0x96, 0x90, 0x01, 0x00, 0, 0x03, 0xA0, 0x96, 0x58, 0x02, 0x10], [0x53, 2],
      [0x56, 0, 5, 0, 0, 0]].map (reads .op) =
      [Instr.vdmDiscoverIdentity ⟨0xFF01, 4, 1⟩, .vdmDiscoverSvids ⟨0xFF01, 4, 1⟩, .vdmDiscoverModes ⟨0xFF01, 4, 1⟩,
        .vdmEnterMode ⟨0xFF01, 4, 1⟩, .vdmDpStatus ⟨0xFF01, 4, 1⟩, .vdmDpConfigure ⟨0xFF01, 4, 1⟩,
        .sourceAccept 6 0x00019096, .sourcePsRdy 0x00019096 ⟨bits1, 0x10025896, []⟩, .sourceReject 2,
        .selectPdoForVoltage [] 5].map some := by decide

/-- R102 to R104, R106. -/
theorem test_decode_tokens_and_markers :
    [[0x12], [0x13], [0x82, 0x03, 0xA3], [0xFF], [0x14], [0xFE], [0xA1]].map (reads .txToken) =
      [Instr.tokSync1, .tokSync2, .tokPacksym [0x03, 0xA3], .tokJamCrc, .tokEop, .tokTxoff, .tokTxon].map some ∧
    [0xE0, 0xC0, 0x00].map (fun b => reads .rxMarker [b]) =
      [Instr.rxSop, .rxSopPrime, .rxEmptyMarker].map some ∧ reads .rxMarker [0xE1] = none := by decide

/-- R110, D1: `2C 91`. -/
theorem test_decode_header : reads .header [0x2C, 0x91, 0x00] = some (.header ⟨.primary, 0, 6, 0, 2, 0⟩ 2 17) := by decide

/-- R114, R116: Control types 0 to 23 and 24, with header byte 0 `03`, revision 2 and data role 1 (`A0` and the type). -/
theorem test_decode_control_headers :
    (List.range 25).map (fun t => reads .headerControl [0x03, BitVec.ofNat 8 (0xA0 + t), 0x00]) =
      [Instr.ctrlReserved0 bits1, .ctrlGoodcrc bits1, .ctrlGotomin bits1, .ctrlAccept bits1, .ctrlReject bits1,
        .ctrlPing bits1, .ctrlPsRdy bits1, .ctrlGetSourceCap bits1, .ctrlGetSinkCap bits1, .ctrlDrSwap bits1,
        .ctrlPrSwap bits1, .ctrlVconnSwap bits1, .ctrlWait bits1, .ctrlSoftReset bits1, .ctrlDataReset bits1,
        .ctrlDataResetComplete bits1, .ctrlNotSupported bits1, .ctrlGetSourceCapExtended bits1, .ctrlGetStatus bits1,
        .ctrlFrSwap bits1, .ctrlGetPpsStatus bits1, .ctrlGetCountryCodes bits1, .ctrlGetSinkCapExtended bits1,
        .ctrlGetSourceInfo bits1, .ctrlUnknown bits1 0].map some := by decide

/-- R115, R116: Data types 0 to 15 and 17, with header byte 0 `23` (two objects) on SOP′. -/
theorem test_decode_data_headers :
    (List.range 16 ++ [17]).map (fun t => reads .headerData [0x23, BitVec.ofNat 8 (0xA0 + t), 0x01]) =
      [Instr.dataReserved0, .dataSourceCapabilities, .dataRequest, .dataBist, .dataSinkCapabilities, .dataBatteryStatus,
        .dataAlert, .dataGetCountryInfo, .dataEnterUsb, .dataEprRequest, .dataEprMode, .dataSourceInfo, .dataRevision,
        .dataReserved13, .dataReserved14, .dataVendorDefined, fun b n => .dataUnknown b n 1].map
        (fun row => some (row ⟨.prime, 0, 1, 1, 2, 1⟩ 2)) := by decide

/-- P1, P18, P19, P20; R1. -/
theorem test_decode_power_objects :
    [[0x96, 0x90, 0x01, 0x00], [0xC8, 0x90, 0x41, 0x5A], [0x2C, 0x91, 0x41, 0x9A], [0x3C, 0x21, 0xA4, 0xC1]].map
      (reads .pdo) =
      [Instr.pdoFixed 0x00019096, .pdoBattery 0x1A4190C8, .pdoVariable 0x1A41912C, .pdoPps 0x01A4213C].map some ∧
    reads .rdo [0x96, 0x58, 0x02, 0x10] = some (.rdoFixed 1 0 150 150) := by decide

/-- V5, V6, V9 and the NAK and BUSY forms of V5. -/
theorem test_decode_vdm_headers :
    reads .vdmHeader [0x04, 0x81, 0x01, 0xFF] = some (.vdmStructured ⟨0xFF01, 0, 1, 0⟩ 0 4) ∧
    reads .vdmHeader [0x34, 0x12, 0x01, 0xFF] = some (.vdmUnstructured 0xFF01 0x1234) ∧
    [0x04, 0x44, 0x84, 0xC4].map (fun b => reads .vdmCommandType [b, 0x81, 0x01, 0xFF]) =
      [Instr.vdmCtReq, .vdmCtAck, .vdmCtNak, .vdmCtBusy].map (fun row => some (row ⟨0xFF01, 0, 1, 0⟩ 4)) ∧
    [0x01, 0x02, 0x03, 0x04, 0x05, 0x06, 0x10, 0x11].map (fun b => reads .vdmCommand [b, 0x81, 0x01, 0xFF]) =
      [Instr.vdmCmdDiscoverIdentity, .vdmCmdDiscoverSvids, .vdmCmdDiscoverModes, .vdmCmdEnterMode, .vdmCmdExitMode,
        .vdmCmdAttention, .vdmCmdDpStatusUpdate, .vdmCmdDpConfigure].map
        (fun row => some (row ⟨0xFF01, 0, 1, 0⟩ 0)) := by decide

/-! ## Single steps -/

/-- What an instruction's next state shows; nothing when it stops. -/
def shows {α : Type} (i : Instr) (s : State) (f : State → α) : Option α :=
  match exec i s with
  | .next t => some (f t)
  | _ => none

/-- After block reset with bytes in a register, in the RX FIFO, and two levels. -/
def withReg (a : Nat) (b : Byte) : State :=
  { State.reset with phy := { Phy.powerOn with regs := regWrite [] a b } }

/-- The levels of the two pins. -/
def withLevels (c1 c2 : BitVec 2) : State := { State.reset with phy := { Phy.powerOn with cc1 := c1, cc2 := c2 } }

/-- Bytes in the RX FIFO. -/
def withRx (bs : List Byte) : State := { State.reset with phy := { Phy.powerOn with rx := bs } }

/-- The same with a PHY that pads with a byte that is neither a marker nor 0 (R64). -/
def endless (rx : List Byte) : State := { withRx rx with cfg := { Cfg.atReset with fifoUnderflow := 0xFF } }

/-- The source of programs P2. -/
def sourceCfg : Cfg := { Cfg.atReset with role := .source }

/-- A source after block reset. -/
def source : State := { State.reset with cfg := sourceCfg, ctl := .setup .source 0 }

/-- T1, T2, T3, T20. -/
theorem test_single_writes :
    [Instr.reset, .resetPd, .powerOn, .configPhy].map (fun i => shows i State.reset State.trace) =
      [[.wr 0x0C [0x01]], [.wr 0x0C [0x02]], [.wr 0x0B [0x0F]], [.wr 0x09 [0x07]]].map some := by decide +kernel

/-- T4. -/
theorem test_unmask_int :
    shows .unmaskInt State.reset State.trace =
      some [.wr 0x0A [0x00], .wr 0x0E [0x00], .wr 0x0F [0x00], .rd 0x06 [0x24], .wr 0x06 [0x04]] := by decide +kernel

/-- T5, T6, T18, T21, T23, T26: what the read-modify-writes put on the bus. -/
theorem test_field_writes :
    shows (.measureCc 1) (withReg 0x02 0x03) State.trace = some [.rd 0x02 [0x03], .wr 0x02 [0x07]] ∧
    shows (.measureCc 2) (withReg 0x02 0x07) State.trace = some [.rd 0x02 [0x07], .wr 0x02 [0x0B]] ∧
    shows (.setHostCurrent 2) (withReg 0x06 0x04) State.trace = some [.rd 0x06 [0x04], .wr 0x06 [0x08]] ∧
    shows (.enableTxSwitch 2) (withReg 0x03 0x24) State.trace = some [.rd 0x03 [0x24], .wr 0x03 [0x46]] ∧
    shows (.enableTxSwitch 1) (withReg 0x03 0xD6) State.trace = some [.rd 0x03 [0xD6], .wr 0x03 [0xD5]] ∧
    shows (.setWake true) (withReg 0x08 0x02) State.trace = some [.rd 0x08 [0x02], .wr 0x08 [0x0A]] := by decide +kernel

/-- T7, T15, T34: a refused operand is an error without a transaction. -/
theorem test_refused_operands :
    shows (.measureCc 0) State.reset (fun t => (t.ctl, t.trace)) =
      some (.fault (.caller (.badPin 0) 0x05), [.emit (.fault (.caller (.badPin 0) 0x05))]) ∧
    shows (.detectSource 4 false) State.reset State.lastError = some (some (.caller (.badCode 4) 0x08)) ∧
    [0, 1, 3, 5].map (fun n => shows (.sendPacket (List.replicate n 0)) State.reset State.lastError) =
      [0, 1, 3, 5].map (fun n => some (some (.caller (.badLength n) 0x16))) := by decide +kernel

/-- T9, T10: Status0 `82` and `C3` with CC1 measured. -/
theorem test_current_level :
    shows .currentLevel { State.reset with phy := { Phy.powerOn with regs := [(0x02, 0x07)], cc1 := 2, status0 := 0x20 } }
      (fun t => (t.result, t.trace)) = some (.level 2, [.rd 0x40 [0x82]]) ∧
    shows .currentLevel { State.reset with phy := { Phy.powerOn with regs := [(0x02, 0x07)], cc1 := 3, status0 := 0x30 } }
      State.result = some (.level 3) := by decide +kernel

/-- T11. -/
theorem test_detect_sink :
    [(2, 0), (0, 3), (1, 1), (0, 0)].map (fun c => shows (.detectSink false) (withLevels c.1 c.2) State.result) =
      [Value.pin .cc1, .pin .cc2, .pin .none, .pin .none].map some := by decide +kernel

/-- T12, and T13, T14: the event, the matching code, the tie. -/
theorem test_detect_debug_and_source :
    shows (.detectSink true) (withLevels 2 0) State.diag = some [.ccMeasured 2 0] ∧
    [(2, 0), (0, 2), (1, 3), (2, 2)].map (fun c => shows (.detectSource 2 false) (withLevels c.1 c.2) State.result) =
      [Value.pin .cc1, .pin .cc2, .pin .none, .pin .cc1].map some ∧
    shows (.detectSource 0 false) (withLevels 0 0) State.result = some (.pin .cc1) := by decide +kernel

/-- T16, T17. -/
theorem test_role_registers :
    [Instr.setTermination .sink, .setTermination .source, .setRoleBits .sink, .setRoleBits .source].map
      (fun i => shows i State.reset State.trace) =
      [[.wr 0x02 [0x03]], [.wr 0x02 [0xC0]], [.wr 0x03 [0x44]], [.wr 0x03 [0xD4]]].map some := by decide +kernel

/-- T24, T25. -/
theorem test_flushes :
    shows .flushRx (withRx [1, 2]) (fun t => (t.trace, t.phy.rx)) = some ([.rd 0x07 [0x00], .wr 0x07 [0x04]], []) ∧
    shows .flushTx { State.reset with phy := { Phy.powerOn with regs := [(0x06, 0x04)], tx := [1] } }
      (fun t => (t.trace, t.phy.tx, regRead t.phy.regs 0x06)) =
      some ([.rd 0x06 [0x04], .wr 0x06 [0x44]], [], 0x04) := by decide +kernel

/-- T27. -/
theorem test_decode_int :
    [0xA1, 0x20, 0x00].map (fun i => shows (.decodeInt i) State.reset State.result) =
      [Value.conditions [.vbusOk, .compChange, .bcLevel], .conditions [.compChange], .conditions []].map some := by decide +kernel

/-- T28. -/
theorem test_read_int :
    shows .readInt { State.reset with phy := { Phy.powerOn with intA := 0x04, intI := 0x20 } }
      (fun t => (t.result, t.phy.intA, t.phy.intI, t.trace)) =
      some (.intBytes 0x04 0x00 0x20, 0, 0, [.rd 0x3E [0x04], .rd 0x3F [0x00], .rd 0x42 [0x20]]) := by decide +kernel

/-- T29, T30, T31. -/
theorem test_receive_reads :
    shows .readRxState State.reset (fun t => (t.result, t.trace)) = some (.rxState true false, [.rd 0x41 [0x28]]) ∧
    shows .readRxState (withRx (List.replicate 80 1)) State.result = some (.rxState false true) ∧
    shows (.readFifo 0) State.reset (fun t => (t.result, t.trace)) = some (.bytes [], []) ∧
    shows (.readFifo 4) (withRx [0xE0, 0x11]) (fun t => (t.result, t.phy.rx)) = some (.bytes [0xE0, 0x11, 0, 0], []) := by
  decide +kernel

/-- T32. -/
theorem test_send_packet :
    shows (.sendPacket [0x03, 0xA3]) State.reset (fun t => (t.trace, t.phy.tx)) =
      some ([.wr 0x43 [0x12, 0x12, 0x12, 0x13, 0x82], .wr 0x43 [0x03, 0xA3], .wr 0x43 [0xFF, 0x14, 0xFE, 0xA1]],
        [0x12, 0x12, 0x12, 0x13, 0x82, 0x03, 0xA3, 0xFF, 0x14, 0xFE, 0xA1]) := by decide +kernel

/-- The same bytes as seven tokens, `tx` after each of two. -/
theorem test_tokens :
    [Instr.tokSync1, .tokSync2, .tokPacksym [0x03, 0xA3], .tokJamCrc, .tokEop, .tokTxoff, .tokTxon].map
      (fun i => shows i State.reset (fun t => t.phy.tx)) =
      [[0x12], [0x13], [0x82, 0x03, 0xA3], [0xFF], [0x14], [0xFE], [0xA1]].map some := by decide +kernel

/-- The CRC of P1's first frame, `72 F1 2C 48` low byte first (`95_test_vectors.md`, P1). -/
theorem test_crc32 : crc32 [0x11, 0xA1, 0x96, 0x90, 0x01, 0x00] = 0x482CF172 := by decide +kernel

/-- R37, R67: AUTO_CRC answers Source_Capabilities with ID 0 and Accept with ID 1 by GoodCRC: for P0's Switches1 `45` (sink) on
CC1, for `D6` (source) on CC2; I_GCRCSENT latches. -/
theorem test_good_crc :
    [((0x45 : Byte), (⟨.primary, 0x11, 0xA1, [0x96, 0x90, 0x01, 0x00]⟩ : RxFrame)), (0xD6, ⟨.primary, 0x03, 0xA3, []⟩)].map
      (fun q => ((answerGoodCrc q.2 { Phy.powerOn with regs := [(0x03, q.1)] }).wire,
        (answerGoodCrc q.2 { Phy.powerOn with regs := [(0x03, q.1)] }).intB)) =
      [([.goodCrc ⟨true, false, .primary, [0x00, 0x81]⟩], 0x01), ([.goodCrc ⟨false, true, .primary, [0x03, 0xA1]⟩], 0x01)] ∧
    (answerGoodCrc ⟨.primary, 0x03, 0xA3, []⟩ { Phy.powerOn with regs := [(0x03, 0x41)] }).wire = [] := by decide +kernel

/-- R43: failed retries lead to a Soft Reset, a failed one to a Hard Reset, each if its Control3 bit is set. -/
theorem test_recovery :
    [(0x07 : Byte), 0x0F, 0x17, 0x1F].map (fun c => txRecovery { Phy.powerOn with regs := [(0x09, c)] } (.failed false)) =
      [[], [.softReset false], [], [.softReset false, .hardReset]] ∧
    txRecovery { Phy.powerOn with regs := [(0x09, 0x1F)] } (.failed true) = [.softReset true] ∧
    txRecovery { Phy.powerOn with regs := [(0x09, 0x1F)] } (.acked 3) = [] := by decide +kernel

/-- R20: `UNMASK_INT`'s primitives (T4), three steps of the supervisor: one primitive each, the control state unchanged. -/
theorem test_one_primitive_a_step :
    (match Host.Core.run core 3 { State.reset with ctl := .setup .sink 3 } with
      | .next t => some (t.trace, t.ctl, position t.notes)
      | _ => none) =
      some ([.wr 0x0A [0x00], .wr 0x0E [0x00], .wr 0x0F [0x00]], .setup .sink 3, 3) := by decide +kernel

/-- T35's end: pin, Switches0, Switches1, both FIFOs. -/
theorem test_find_cc :
    shows (.findCc (.sink false)) { State.reset with
      phy := { Phy.powerOn with regs := [(0x03, 0x44), (0x06, 0x04)], cc1 := 2, rx := [1], tx := [2] } }
      (fun t => (t.ses.ccPin, [regRead t.phy.regs 0x02, regRead t.phy.regs 0x03], t.phy.rx, t.phy.tx)) =
      some (.cc1, [0x07, 0x45], [], []) := by decide +kernel

/-! ## The codec -/

/-- H1 to H8: sink Request, source Accept, PS_RDY and Soft_Reset, Source_Capabilities of 2 and 7 PDOs; H9. -/
theorem test_encode_header :
    [Instr.encodeHeader 0 1 0 2 0 0 2, .encodeHeader 0 0 1 2 1 1 3, .encodeHeader 0 0 2 2 1 1 6,
      .encodeHeader 0 1 1 2 0 0 15, .encodeHeader 0 0 0 2 1 1 13, .encodeHeader 0 2 7 2 1 1 1,
      .encodeHeader 0 7 5 2 1 1 1].map (fun i => shows i State.reset State.result) =
      [[0x10, 0x82], [0x03, 0xA3], [0x05, 0xA6], [0x12, 0x8F], [0x01, 0xAD], [0x2F, 0xA1], [0x7B, 0xA1]].map
        (fun bs => some (.bytes bs)) ∧
    shows (.encodeHeader 0 8 0 2 0 0 2) State.reset State.lastError = some (some (.caller .badHeaderField 0x21)) := by
  decide +kernel

/-- C1 to C5. -/
theorem test_encode_command :
    shows (.encodeCommand .accept [] 1 2 1 1) State.reset State.result = some (.bytes [0x03, 0xA3]) ∧
    shows (.encodeCommand .sourceCapabilities [0x96, 0x90, 0x01, 0x00] 0 2 1 1) State.reset State.result =
      some (.bytes [0x11, 0xA1, 0x96, 0x90, 0x01, 0x00]) ∧
    shows (.encodeCommand .request [] 0 2 1 1) State.reset State.lastError = some (some (.caller .badCommandName 0x22)) ∧
    shows (.encodeCommand .accept [0, 0, 0, 0] 0 2 1 1) State.reset State.lastError =
      some (some (.caller .badCommandName 0x22)) ∧
    shows (.encodeCommand .request [0, 0, 0] 0 2 1 1) State.reset (fun t => t.lastError.isSome) = some true := by decide +kernel

/-- P1, P3, P7, P11: both ways. -/
theorem test_fixed_pdo :
    [Instr.buildFixedPdo 5000 1500 0 0, .buildFixedPdo 9000 3000 0 0, .buildFixedPdo 51150 10230 3 255,
      .buildFixedPdo 5000 1500 1 0].map (fun i => shows i State.reset State.result) =
      [[0x96, 0x90, 0x01, 0x00], [0x2C, 0xD1, 0x02, 0x00], [0xFF, 0xFF, 0xFF, 0x3F], [0x96, 0x90, 0x11, 0x00]].map
        (fun bs => some (.bytes bs)) ∧
    [0x00019096, 0x0002D12C, 0x3FFFFFFF, 0x00119096].map (fun w => shows (.parsePdo w) State.reset State.result) =
      [Pdo.fixed ⟨5000, 1500, 0, 0⟩, .fixed ⟨9000, 3000, 0, 0⟩, .fixed ⟨51150, 10230, 3, 255⟩,
        .fixed ⟨5000, 1500, 1, 0⟩].map (fun p => some (.pdo p)) := by decide +kernel

/-- P12 to P17. -/
theorem test_refused_pdo_fields :
    [Instr.buildFixedPdo 51200 0 0 0, .buildFixedPdo 5025 0 0 0, .buildFixedPdo 5000 1505 0 0, .buildFixedPdo 5000 10240 0 0,
      .buildFixedPdo 5000 1500 4 0, .buildFixedPdo 5000 1500 0 256].map (fun i => shows i State.reset State.lastError) =
      List.replicate 6 (some (some (.caller .badPdoField 0x24))) := by decide +kernel

/-- P18 to P21. -/
theorem test_other_pdos :
    [0x5A4190C8, 0x9A41912C, 0xC1A4213C].map (fun w => shows (.parsePdo w) State.reset State.result) =
      [Pdo.battery 21000 5000 50000, .variablePdo 21000 5000 3000, .pps 0 0 21000 3300 3000].map
        (fun p => some (.pdo p)) ∧
    [PdoKind.battery, .variablePdo, .pps].map (fun k => shows (.buildPdo k []) State.reset State.lastError) =
      [Construction.pdoBattery, .pdoVariable, .pdoPps].map (fun c => some (some (.unsupported c 0x25))) := by decide +kernel

/-- V1, V5, V9. -/
theorem test_parse_vdm_header :
    [0xFF008001, 0xFF018104, 0xFF011234].map (fun w => shows (.parseVdmHeader w) State.reset State.result) =
      [VdmHeader.structured 0xFF00 0 0 0 1, .structured 0xFF01 0 1 0 4, .unstructured 0xFF01 0x1234].map
        (fun v => some (.vdm v)) := by decide +kernel

/-- V6, V11, V12, V10, V10a. -/
theorem test_build_vdm :
    shows (.buildVdmHeader (.structured 0xFF01 0 1 1 4) [0, 0, 0, 1]) State.reset State.result =
      some (.bytes [0x44, 0x81, 0x01, 0xFF, 0, 0, 0, 1]) ∧
    shows (.buildVdmHeader (.structured 0xFF01 0 1 1 4) [0, 0, 0]) State.reset State.lastError =
      some (some (.caller .badVdmField 0x28)) ∧
    shows (.buildVdmHeader (.unstructured 0xFF01 0x1234) []) State.reset State.lastError =
      some (some (.unsupported .vdmUnstructured 0x28)) ∧
    shows (.buildVdmUnstructured 0xFF01 0x1234 []) State.reset State.lastError =
      some (some (.unsupported .vdmUnstructured 0x29)) := by decide +kernel

/-- R1 to R5. -/
theorem test_requests :
    [Instr.buildRequest 0 1500, .buildRequest 1 3000, .buildRequest 6 10230, .buildRequest 0 0].map
      (fun i => shows i State.reset State.result) =
      [[0x96, 0x58, 0x02, 0x10], [0x2C, 0xB1, 0x04, 0x20], [0xFF, 0xFF, 0x0F, 0x70], [0x00, 0x00, 0x00, 0x10]].map
        (fun bs => some (.bytes bs)) ∧
    shows (.parseRequest 0x10025896) State.reset State.result = some (.request ⟨1, 1500, 1500, 0⟩) ∧
    shows (.buildRequest 7 1500) State.reset State.lastError = some (some (.caller .badRequest 0x2A)) := by decide +kernel

/-- The type lookups of 2.2. -/
theorem test_type_lookup :
    [(MsgClass.data, 1), (.data, 15), (.data, 13), (.data, 17), (.control, 3), (.control, 23), (.control, 24)].map
      (fun q => shows (.typeLookup q.1 q.2) State.reset State.result) =
      [MsgName.sourceCapabilities, .vendorDefined, .reserved, .unknown 17, .accept, .getSourceInfo, .unknown 24].map
        (fun n => some (.name n)) := by decide +kernel

/-- E5 and M3, M5: garbage, then 0. -/
theorem test_parse_not_ready :
    shows .parseMessage (withRx [0x05, 0x00]) (fun t => (t.result, t.diag, t.trace, t.lastError)) =
      some (.notReady, [.discardedByte 0x05], [.rd 0x43 [0x05], .emit (.discardedByte 0x05), .rd 0x43 [0x00]], none) ∧
    shows .parseMessage (withRx [0xA0, 0x01, 0x00, 0x00]) (fun t => (t.result, t.diag)) =
      some (.notReady, [.discardedByte 0xA0, .discardedByte 0x01]) ∧
    shows .parseMessage State.reset (fun t => (t.result, t.trace)) = some (.notReady, [.rd 0x43 [0x00]]) := by decide +kernel

/-- R201, R64: with an underflow byte of 0xFF the scan reads and reports 0x05 and then 0xFF, and has not ended; a frame that
arrives then is found by the next step's read. -/
theorem test_parse_goes_on :
    shows .parseMessage (endless [0x05]) (fun t => (t.running, t.notes.length, t.result, t.diag)) =
      some (some .parseMessage, 4, .none, [.discardedByte 0x05, .discardedByte 0xFF]) ∧
    (∃ t, exec .parseMessage (endless []) = .next t ∧
      (match step { t with env := [⟨[.bytes [0xE0, 0x03, 0xA3]], .completes⟩] } with
        | .next u => (u.running, u.notes.length, u.trace.drop 2)
        | _ => (none, 0, [])) = (some .parseMessage, 3, [.rd 0x43 [0xE0]])) := ⟨by decide +kernel, _, rfl, by decide +kernel⟩

/-- M2, M4. -/
theorem test_parse_control :
    shows .parseMessage (withRx [0x05, 0xE0, 0x03, 0xA3, 1, 2, 3, 4])
      (fun t => (t.result, t.diag, t.phy.rx)) =
      some (.message (messageOf bits1 3 []), [.discardedByte 0x05], []) ∧
    shows .parseMessage (withRx [0xE0]) State.result = some (.message (messageOf bits0 0 [])) := by decide +kernel

/-- M6, M7. -/
theorem test_parse_data :
    shows .parseMessage (withRx [0xE0, 0x11, 0xA1, 0x96, 0x90]) State.result =
      some (.message (messageOf ⟨.primary, 0, 0, 1, 2, 1⟩ 1 [0x00009096])) ∧
    shows .rxSopPrime (withRx [0x10, 0x8F, 0x01, 0x80, 0x00, 0xFF, 1, 2, 3, 4]) State.result =
      some (.message (messageOf ⟨.prime, 0, 0, 0, 2, 0⟩ 15 [0xFF008001])) := by decide +kernel

/-! ## Sequencer and negotiation -/

/-- S2, S3. -/
theorem test_sequencer :
    shows .nextMsgId { State.reset with ses := { Session.fresh with msgId := some 7 } } State.result =
      some (.msgId 0) ∧
    shows (.sendCommand .request [0x96, 0x58, 0x02, 0x10]) State.reset
      (fun t => (t.phy.tx, t.ses.msgId, t.ses.sentLog)) =
      some ([0x12, 0x12, 0x12, 0x13, 0x86, 0x10, 0x82, 0x96, 0x58, 0x02, 0x10, 0xFF, 0x14, 0xFE, 0xA1], some 0,
        [⟨2, .data, 0, [0x96, 0x58, 0x02, 0x10]⟩]) := by decide +kernel

/-- S4, S5. -/
theorem test_sequencer_source_and_refusal :
    shows (.sendCommand .accept []) { source with ses := { Session.fresh with msgId := some 0 } }
      (fun t => (t.phy.tx, t.ses.msgId)) =
      some ([0x12, 0x12, 0x12, 0x13, 0x82, 0x03, 0xA3, 0xFF, 0x14, 0xFE, 0xA1], some 1) ∧
    shows (.sendCommand .request []) State.reset (fun t => (t.ses.msgId, t.lastError, t.phy.tx, t.ses.sentLog)) =
      some (some 0, some (.caller .badCommandName 0x22), [], []) := by decide +kernel

/-- N1, N2, N3. -/
theorem test_sink_answers :
    shows (.sinkSendRequest [0x00019096]) { State.reset with selects := [none] } (fun t => (t.diag, t.phy.tx)) =
      some ([.noProfileSelected], []) ∧
    shows (.sinkSendRequest [0x00019096]) { State.reset with selects := [some (1, 1500)] } State.lastError =
      some (some (.caller (.badPolicyAnswer 1 1500) 0x46)) ∧
    shows (.sinkSendRequest [0x00019096]) { State.reset with selects := [some (0, 1505)] } State.lastError =
      some (some (.caller (.badPolicyAnswer 0 1505) 0x46)) := by decide +kernel

/-- N4. -/
theorem test_sink_accept : shows (.sinkOnAccept false bits1) State.reset (fun t => t.ses.sinkState) = some .powered := by
  decide +kernel

/-- N5 to N9, with `VDM_RESPONSES[1]` of one object; what is sent after the header. -/
theorem test_vdm_responder :
    [0xFF008001, 0xFF008041, 0xFF018105, 0x12348111, 0xFF011234].map (fun w =>
      shows (.sinkOnVdm ⟨bits0, w, []⟩) { State.reset with cfg := { Cfg.atReset with vdmIdentity := [1, 2, 3, 4] } }
        (fun t => t.ses.sentLog.map SentRecord.dataObjects)) =
      [[[0x41, 0x80, 0x00, 0xFF, 1, 2, 3, 4]], [], [], [[0x51, 0x81, 0x34, 0x12]], []].map some := by decide +kernel

/-- The six responder operations echo the fields of V5: the command and its type are the low byte of the header. -/
theorem test_vdm_operations :
    [Instr.vdmDiscoverIdentity ⟨0xFF01, 0, 1⟩, .vdmDiscoverSvids ⟨0xFF01, 0, 1⟩, .vdmDiscoverModes ⟨0xFF01, 0, 1⟩,
      .vdmEnterMode ⟨0xFF01, 0, 1⟩, .vdmDpStatus ⟨0xFF01, 0, 1⟩, .vdmDpConfigure ⟨0xFF01, 0, 1⟩].map
      (fun i => shows i State.reset (fun t => t.ses.sentLog.map SentRecord.dataObjects)) =
      [0x41, 0x42, 0x43, 0x44, 0x50, 0x51].map (fun b => some [[b, 0x81, 0x01, 0xFF]]) := by decide +kernel

/-- N10, N11. -/
theorem test_source_rejects :
    shows (.sourceOnRequest ⟨bits0, 0x20000000, []⟩) source (fun t => (t.diag, t.trace, t.phy.tx)) =
      some ([.policyRejected 2], [.ask .powerOff, .emit (.policyRejected 2)], []) ∧
    shows (.sourceOnRequest ⟨bits0, 0x10000000, []⟩) { source with validates := [false] }
      (fun t => (t.diag, t.ses.profileAccepted, t.phy.tx)) = some ([.policyRejected 1], false, []) := by decide +kernel

/-- P2, iteration 2: Accept, then PS_RDY. -/
theorem test_source_accepts :
    shows (.sourceOnRequest ⟨bits0, 0x10025896, []⟩)
      { source with validates := [true], ses := { Session.fresh with msgId := some 0 } }
      (fun t => (t.phy.tx, t.ses.sourceState, t.ses.msgId)) =
      some ([0x12, 0x12, 0x12, 0x13, 0x82, 0x03, 0xA3, 0xFF, 0x14, 0xFE, 0xA1,
        0x12, 0x12, 0x12, 0x13, 0x82, 0x05, 0xA6, 0xFF, 0x14, 0xFE, 0xA1], .powered, some 2) := by decide +kernel

/-- P2, k10; N12, N14. -/
theorem test_advertisement :
    shows .sourceAdvertise source (fun t => t.phy.tx) =
      some [0x12, 0x12, 0x12, 0x13, 0x86, 0x11, 0xA1, 0x96, 0x90, 0x01, 0x00, 0xFF, 0x14, 0xFE, 0xA1] ∧
    shows .advCadence { source with ses := { Session.fresh with advIters := 2, msgId := some 0 } }
      (fun t => (t.ses.msgId, t.ses.advIters, t.ses.advRetries)) = some (some 1, 0, 1) ∧
    shows .advCadence { source with ses := { Session.fresh with advIters := 2, profileAccepted := true } }
      (fun t => t.ses.advIters) = some 2 := by decide +kernel

/-- N15, N16. -/
theorem test_soft_reset :
    shows .onSoftReset { State.reset with ses := { Session.fresh with msgId := some 3 } }
      (fun t => (t.ses.msgId, t.phy.tx)) = some (none, []) ∧
    shows .onSoftReset { State.reset with cfg := { Cfg.atReset with softResetReply := .accept } } (fun t => t.phy.tx) =
      some [0x12, 0x12, 0x12, 0x13, 0x82, 0x00, 0x83, 0xFF, 0x14, 0xFE, 0xA1] := by decide +kernel

/-- N17. -/
theorem test_reference_policy :
    [(([0x00019096, 0x0002D12C] : List Word32), (9 : Word32)), ([0x00019096, 0x0002D12C], 20),
      ([0xC1A4213C, 0x00019096], 5)].map
      (fun q => shows (.selectPdoForVoltage q.1 q.2) State.reset State.result) =
      [some (1, 3000), none, some (1, 1500)].map (fun c => some (.choice c)) := by decide +kernel

/-- N18, N19, N20. -/
theorem test_int_step :
    shows .intStep { State.reset with phy := { Phy.powerOn with intI := 0xA1 } } (fun t => (t.diag, t.result)) =
      some ([.interrupts 0 0 0xA1, .intCondition .vbusOk, .intCondition .compChange, .intCondition .bcLevel, .detached],
        .attached false) ∧
    shows .intStep { State.reset with phy := { Phy.powerOn with intA := 0x04 } } State.diag =
      some [.interrupts 4 0 0] ∧
    shows .detachCheck { source with phy := { Phy.powerOn with cc2 := 2 } } (fun t => (t.result, t.ses.ccPin)) =
      some (.attached true, .cc2) := by decide +kernel

/-- P1, iteration 2, as the header row; D8 is not dispatched. -/
theorem test_header_rows :
    shows (.ctrlAccept bits1) (withRx [0x6E, 0xB3, 0x2B, 0x25]) (fun t => (t.ses.sinkState, t.diag, t.phy.rx)) =
      some (.powered, [.received (messageOf bits1 3 [])], []) ∧
    shows (.dataVendorDefined ⟨.prime, 0, 0, 0, 2, 0⟩ 1) (withRx [0x01, 0x80, 0x00, 0xFF, 1, 2, 3, 4])
      (fun t => (t.phy.tx, t.diag)) = some ([], [.received (messageOf ⟨.prime, 0, 0, 0, 2, 0⟩ 15 [0xFF008001])]) := by decide +kernel

/-! ## Errors, reset, setup -/

/-- X1: a transaction that fails in sink setup step 2. -/
theorem test_setup_bus_error :
    shows .setup { State.reset with env := [{}, { bus := .failsUndone }] } (fun t => (t.lastError, t.ctl)) =
      some (some (.bus 0x0B .write 1 0x03), .fault (.bus 0x0B .write 1 0x03)) := by decide +kernel

/-- X2. -/
theorem test_bad_config :
    [[], List.replicate 8 ⟨5000, 1500, 0, 0⟩, [⟨51200, 1500, 0, 0⟩]].map (fun ps =>
      shows .blockReset { source with cfg := { sourceCfg with advertisedPdos := ps } } (fun t => (t.ctl, t.trace))) =
      List.replicate 3 (some (.fault (.caller .badConfig 0x60), [.emit (.fault (.caller .badConfig 0x60))])) := by decide +kernel

/-- X3. -/
theorem test_cancel_recover :
    shows .cancelRecover { State.reset with ctl := .pause 0 } (fun t => (t.ctl, t.diag)) =
      some (.setup .sink 0, [.cancelled]) := by decide +kernel

/-- P0's end. -/
theorem test_sink_setup :
    shows .setup (withLevels 2 0) (fun t => (t.ctl, t.ses, [0x02, 0x03, 0x06, 0x07, 0x09, 0x0B].map (regRead t.phy.regs))) =
      some (.flow .sink 0, { Session.fresh with ccPin := .cc1 }, [0x07, 0x45, 0x04, 0x00, 0x07, 0x0F]) := by decide +kernel

/-- P2's setup: the first advertisement. -/
theorem test_source_setup :
    shows .setup { source with phy := { Phy.powerOn with cc1 := 2 } } (fun t => (t.ctl, t.ses.ccPin, t.phy.tx)) =
      some (.flow .source 0, .cc1,
        [0x12, 0x12, 0x12, 0x13, 0x86, 0x11, 0xA1, 0x96, 0x90, 0x01, 0x00, 0xFF, 0x14, 0xFE, 0xA1]) := by decide +kernel

/-- R43, D26: `CONFIG_PHY` puts no Hard Reset on the cable, with every other bit of PHY_CONTROL3 set; R381's check still refuses
a value above 255. -/
theorem test_no_hard_reset :
    shows .configPhy { State.reset with cfg := { Cfg.atReset with phyControl3 := ⟨0xBF, by decide⟩ } }
      (fun t => (t.trace, t.phy.wire)) = some ([.wr 0x09 [0xBF]], []) ∧
    checkConfig { Cfg.atReset with phyControl3 := ⟨0x100, by decide⟩ } = false := by decide +kernel

/-- In `Fault` a step stops; an unassigned code is refused; the supervisor's first step is setup step 0. -/
theorem test_steps :
    step { State.reset with ctl := .fault (.caller .badConfig 0x60) } = .fault .halted ∧
    step { State.reset with port := some ⟨.op, [0x17]⟩ } = .refused (.noEncoding 1) ∧
    step State.reset = .next { State.reset with ctl := .setup .sink 1 } := ⟨rfl, rfl, rfl⟩

/-- The interface: an operation of the table, and a header, as table words. -/
theorem test_table_words :
    decodeTableWord 8 0x14 = some .readRxState ∧ decodeTableWord 8 0xE0 = some .rxSop ∧
    decodeTableWord 16 0x0003 = some (.ctrlAccept ⟨.primary, 0, 0, 0, 0, 0⟩) := by decide +kernel

/-! ## The statements' hypotheses

One theorem for each statement with hypotheses: concrete states and operands that meet them together. -/

/-- A next state, from what it shows. -/
theorem next_of_shows {α : Type} {i : Instr} {s : State} {f : State → α} {v : α} (h : shows i s f = some v) :
    ∃ t, exec i s = .next t ∧ f t = v := by
  unfold shows at h
  split at h
  · next t ht => exact ⟨t, ht, by simpa using h⟩
  · cases h

/-- A busy PHY that moves on its own, the bus and the levels steady: bytes arrive, a bit latches, two frames end,
a frame is received. -/
def busy : State :=
  { State.reset with
    cfg := { Cfg.atReset with rev := 3, phyControl3 := ⟨0xBF, by decide⟩, enableSopPrime := true }
    env := [{ acts := [.bytes [0xE0], .latch 0 0 0x10, .transmit (.failed true), .transmit (.acked 1)] },
      { acts := [.receive ⟨.prime, 0x03, 0xA3, []⟩] }]
    phy := { Phy.powerOn with regs := [(0x03, 0xF7), (0x06, 0x9E), (0x07, 0xFB)], rx := [1], tx := [0xA1], cc1 := 3 } }

theorem busy_completes : BusCompletes busy := by unfold BusCompletes; decide

theorem busy_steady : LevelsSteady busy := by unfold LevelsSteady; decide

theorem busy_mapped : Memory.wf busy.phy.regs = true ∧ RegsMapped busy.phy.regs :=
  ⟨by decide, by unfold RegsMapped; decide⟩

/-- The source's configuration with everything at the edge of its range (R381). -/
def edgeCfg : Cfg :=
  { sourceCfg with
    rev := 3, hostCurrentCode := 3, phyControl3 := ⟨0xBF, by decide⟩, advertisedPdos := List.replicate 7 ⟨51150, 10230, 3, 255⟩
    vdmIdentity := List.replicate 24 0xFF, softResetReply := .accept, defaultPin := .cc2 }

/-- A source with that configuration and a TX FIFO of exactly one longest frame. -/
def edge : State := { State.reset with cfg := { edgeCfg with txFifoBytes := ⟨39, by decide⟩ }, ctl := .flow .source 0 }

/-- The same as a sink. -/
def edgeSink : State := { edge with cfg := { edge.cfg with role := .sink }, ctl := .flow .sink 0 }

theorem edge_config : checkConfig edge.cfg = true ∧ checkConfig edgeSink.cfg = true ∧ TxRoom 39 edge ∧ TxRoom 39 edgeSink :=
  ⟨by decide, by decide, by unfold TxRoom; decide, by unfold TxRoom; decide⟩

/-- A halted block with an invocation in the port. -/
def haltedWith (bs : List Byte) : State :=
  { State.reset with ctl := .fault (.caller .badConfig 0x60), port := some ⟨.op, bs⟩ }

theorem witness_StepRunsTheInvokedInstruction :
    (∀ e, (State.reset.withFetchWord 8 0x14).ctl ≠ .fault e) ∧ (State.reset.withFetchWord 8 0x14).port.isSome = true ∧
    decode .op [0x14] = .ok .readRxState ∧ decode .op [0x60] = .ok .blockReset ∧
    (∃ e, (haltedWith [0x14]).ctl = .fault e) ∧ (haltedWith [0x60]).port = some ⟨.op, [0x60]⟩ :=
  ⟨fun _ h => (by cases h), rfl, rfl, rfl, ⟨_, rfl⟩, rfl⟩

theorem witness_UnassignedCodesAreRefused :
    [0x00, 0x17, 0x2D, 0x34, 0x57, 0x64].map (fun c => decode .op [c]) =
      [0x00, 0x17, 0x2D, 0x34, 0x57, 0x64].map (fun c => .error (.unassignedCode c)) ∧
    (decode .op [0x05]).toOption = none := ⟨rfl, by decide⟩

theorem witness_DecodeReadsBackEncode :
    (Instr.dispatch ⟨bits1, 31, List.replicate 7 0xFFFFFFFF⟩).wf = true ∧ (Instr.dataUnknown bits1 7 15).wf = true ∧
    (Instr.tokPacksym (List.replicate 31 0xFF)).wf = true := by decide

theorem witness_StepKeepsInvariant : Inv edge ∧ ∃ t, step edge = .next t := by
  refine ⟨⟨by decide, by decide, by unfold RegsMapped; decide, by decide, by decide, by decide, fun _ => rfl, fun _ => rfl, ⟨rfl, by decide⟩,
    fun e => ⟨fun h => (by cases h), fun h => (by cases h)⟩, fun _ => rfl, by decide, by decide⟩, ⟨_, rfl⟩⟩

theorem witness_FaultIsLeftByBlockResetOnly :
    (∀ inv, ({ haltedWith [] with port := none }).port = some inv → decode inv.format inv.bytes ≠ .ok .blockReset) ∧
    (haltedWith [0x60]).ctl = .fault (.caller .badConfig 0x60) ∧ checkConfig (haltedWith [0x60]).cfg = true ∧
    checkConfig { Cfg.atReset with rev := 4 } = false :=
  ⟨fun _ h => (by cases h), rfl, by decide, by decide⟩

theorem witness_FaultRecordsItsError :
    (∃ t, exec (.measureCc 0) State.reset = .next t ∧ t.ctl = .fault (.caller (.badPin 0) 0x05)) ∧
    ∀ e, State.reset.ctl ≠ .fault e :=
  ⟨next_of_shows (f := State.ctl) (by decide +kernel), fun _ h => by cases h⟩

theorem witness_SupervisorRunsSetup :
    source.port = none ∧ source.notes = [] ∧ source.running = none ∧ source.scan = none ∧ source.ctl = .setup source.cfg.role 0 ∧
    (∃ t, exec .setup source = .next t ∧ t.ctl = .flow .source 0) ∧
    ∃ t, step { source with ctl := .setup .source 1 } = .next t ∧ t.notes = [] ∧
      ∃ u, step { source with ctl := .setup .source 3 } = .next u ∧ u.notes ≠ [] :=
  ⟨rfl, rfl, rfl, rfl, rfl, next_of_shows (f := State.ctl) (by decide +kernel), _, rfl, rfl, _, rfl, by decide⟩

theorem witness_SupervisorRunsFlow :
    edge.port = none ∧ edge.notes = [] ∧ edge.running = none ∧ edge.scan = none ∧ edge.ctl = .flow edge.cfg.role 0 ∧
    (∃ t, exec .runFlow edge = .next t ∧ t.ctl = .flow .source 0) ∧
    ∃ t, exec .runFlow { edge with stops := [true] } = .next t ∧ t.ctl = .pause 0 :=
  ⟨rfl, rfl, rfl, rfl, rfl, next_of_shows (f := State.ctl) (by decide +kernel),
    next_of_shows (f := State.ctl) (by decide +kernel)⟩

/-- The bus completes, the levels are steady, the registers are in form: hypotheses of the Transceiver Driver's statements
(`ResetsActAtOnce`, `SetupHelpersSetTheirRegisters`, `UnmaskIntUnmasksEverything`, `FieldOperationsKeepTheOtherBits`,
`FlushesEmptyOneFifo`, `LevelsAndDetection`, `FindCcSettlesOntoThePin`, `ReadIntReadsAndClears`, `ReceiveReads`,
`DetachIsFoundAndEndsTheIteration`). -/
theorem witness_driver_hypotheses :
    busFate busy = .completes ∧ BusCompletes busy ∧ LevelsSteady busy ∧ Memory.wf busy.phy.regs = true ∧
    RegsMapped busy.phy.regs ∧ checkConfig busy.cfg = true ∧ busy.cfg.rev ≤ 3 ∧ busy.cfg.phyControl3.val ≤ 255 ∧
    busy.cfg.enableSopPrime = true ∧ busy.cfg.defaultPin ≠ .none ∧ busFate State.reset = .completes ∧
    State.reset.cfg.enableSopPrime = false :=
  ⟨by decide, busy_completes, busy_steady, busy_mapped.1, busy_mapped.2, by decide, by decide, by decide, by decide,
    by decide, by decide, by decide⟩

theorem witness_LevelsAndDetection :
    (withReg 0x02 0x07).phy.settle = 0 ∧ regRead (withReg 0x02 0x07).phy.regs 0x02 &&& 0x0C = 0x04 ∧
    regRead (withReg 0x02 0x0B).phy.regs 0x02 &&& 0x0C = 0x08 := by decide

theorem witness_FindCcSettlesOntoThePin :
    StrategyPin (.sink true) busy.phy.cc1 busy.phy.cc2 = .cc1 ∧ StrategyPin (.source 3 false) 0 3 = .cc2 ∧
    StrategyPin (.sink false) 0 0 = .none ∧ State.reset.cfg.defaultPin = .cc1 ∧ edge.cfg.defaultPin = .cc2 := by decide

theorem witness_SendPacketWritesThreeTimes :
    (List.replicate 30 (0xFF : Byte)).length = 2 + 4 * 7 ∧ TxRoom (30 + 9) edge ∧ [(3 : Byte), 0xA3].length = 2 + 4 * 0 ∧
    BusCompletes edge :=
  ⟨by decide, edge_config.2.2.1, by decide, by unfold BusCompletes; decide⟩

theorem witness_TokensAreOneFifoWrite :
    TokenBytes (.tokPacksym (List.replicate 31 0xFF)) = some (0x9F :: List.replicate 31 0xFF) ∧
    (Instr.tokPacksym (List.replicate 31 0xFF)).wf = true ∧ busFate edge = .completes ∧ TxRoom 32 edge :=
  ⟨by decide, by decide, by decide, by unfold TxRoom; decide⟩

theorem witness_TheWrittenFrameIsTransmitted :
    ({ Phy.powerOn with tx := [0x12, 0x12, 0x12, 0x13, 0x82, 0x03, 0xA3, 0xFF, 0x14, 0xFE, 0xA1] }).tx =
      [0x12, 0x12, 0x12, 0x13, BitVec.ofNat 8 (128 + [(0x03 : Byte), 0xA3].length)] ++ [0x03, 0xA3] ++
        [0xFF, 0x14, 0xFE, 0xA1] ∧
    [(0x07 : Byte), 0x0F, 0x1F].map (fun c => (c.getLsbD 3, c.getLsbD 4)) = [(false, false), (true, false), (true, true)] := by
  decide

theorem witness_RefusedOperandsRaise :
    (3 : Byte) ≠ 1 ∧ (3 : Byte) ≠ 2 ∧ 4 ≤ (4 : Byte).toNat ∧ ∀ k, k ≤ 7 → (List.replicate 34 (0 : Byte)).length ≠ 2 + 4 * k := by
  decide

theorem witness_FailedPayloadWriteLeavesTheSopTokens :
    TxRoom (30 + 9) { edge with env := [{}, { bus := .failsDone }] } ∧ BusFate.failsDone ≠ .completes ∧
    BusFate.failsUndone ≠ .completes ∧ Memory.wf edge.phy.regs = true :=
  ⟨edge_config.2.2.1, by decide, by decide, by decide⟩

theorem witness_EncodeCommandLooksTheNameUp :
    typeLookup .control 23 = .getSourceInfo ∧ typeLookup .data 15 = .vendorDefined ∧
    (∀ t : BitVec 5, t.toNat < 24 → typeLookup .control t ≠ .request) ∧ [(0 : Byte), 0, 0].length % 4 ≠ 0 := by decide

theorem witness_FixedPdoRoundTrips :
    51150 % 50 = 0 ∧ 51150 ≤ 51150 ∧ 10230 % 10 = 0 ∧ 10230 ≤ 10230 ∧ 3 ≤ 3 ∧ 255 ≤ 255 ∧
    (0x3FFFFFFF : Word32).extractLsb' 30 2 = 0#2 ∧ (51200 : Word32).toNat > 51150 := by decide

theorem witness_ParseMessageReadsOneFrame :
    (∀ b ∈ [(0x05 : Byte), 0xA0], b ≠ 0xE0 ∧ b ≠ 0xC0 ∧ b ≠ 0x00) ∧
    (List.replicate 7 (0xFFFFFFFF : Word32)).length = ((0x7B : Byte).extractLsb' 4 3).toNat ∧
    (withRx [0x05, 0xC0, 0x03, 0xA3, 1, 2, 3, 4, 9]).phy.rx =
      [0x05] ++ 0xC0 :: 0x03 :: 0xA3 :: (([] : List Word32).flatMap wordBytes ++ [1, 2, 3, 4] ++ [9]) := by decide

theorem witness_ParseMessageEndsNotReady :
    (withRx [0x05, 0x00, 0xE0]).phy.rx = [0x05] ++ 0x00 :: [0xE0] ∧ (withRx [0x05]).phy.rx = [0x05] ∧
    (withRx []).cfg.fifoUnderflow = 0 ∧ BusCompletes busy ∧ (endless [5]).env = [] ∧ (endless [5]).port = none ∧
    (∀ e, (endless [5]).ctl ≠ .fault e) ∧ (endless [5]).cfg.fifoUnderflow = 0xFF ∧
    ∀ b ∈ (0xFF : Byte) :: (endless [5]).phy.rx, b ≠ 0xE0 ∧ b ≠ 0xC0 ∧ b ≠ 0x00 :=
  ⟨by decide, by decide, by decide, busy_completes, by decide, by decide, fun _ h => (by cases h), by decide, by decide⟩

theorem witness_IgnoredHeadersAreOnlyReported :
    Ignored .sink .prime .data 1 ∧ Ignored .source .primary .control 3 ∧ Ignored .sink .primary .control 24 ∧
    Ignored .source .primary .data 15 ∧ (withRx [1, 2, 3, 4]).phy.rx = ([] : List Word32).flatMap wordBytes ++ [1, 2, 3, 4] ++ [] :=
  ⟨.inl rfl, .inr (.inl (by decide)), .inr (.inl (by decide)), .inr (.inr (by decide)), by decide⟩

theorem witness_HeaderRowsDispatchTheirMessage :
    (withRx [1, 2, 3, 4]).scan = none ∧
    (∃ v, exec (.dispatch ⟨bits1, 3, []⟩) { withRx [] with trace := [.rd 0x43 [1, 2, 3, 4]] } = .next v ∧ v.result = .unit) ∧
    ∃ v, exec (.dispatch ⟨bits1, 1, [0]⟩) { withRx [] with selects := [some (7, 5)] } = .next v ∧ v.result = .none :=
  ⟨rfl, next_of_shows (f := State.result) (by decide +kernel), next_of_shows (f := State.result) (by decide +kernel)⟩

/-- The longest message: seven objects, whose first names position 7 of a Request; with `withRx` of its bytes. -/
def longest : List Byte := (0x70000000 :: List.replicate 6 (0xFFFFFFFF : Word32)).flatMap wordBytes ++ [1, 2, 3, 4] ++ [9]

theorem witness_HeaderRowsReact :
    bits1.sop = .primary ∧ (withRx [1, 2, 3, 4, 9]).phy.rx = [1, 2, 3, 4] ++ [9] ∧
    (withRx longest).phy.rx = (0x70000000 :: List.replicate 6 (0xFFFFFFFF : Word32)).flatMap wordBytes ++ [1, 2, 3, 4] ++ [9] ∧
    (7 : BitVec 3) = BitVec.ofNat 3 ((List.replicate 6 (0xFFFFFFFF : Word32)).length + 1) ∧
    ({ edgeSink with selects := [some (6, 10230)] }).selects = some (6, 10230) :: [] ∧
    edgeSink.cfg.role = .sink ∧ TxRoom 15 edgeSink ∧ TxRoom 39 edgeSink ∧ AnswerTo edgeSink 1 = some (List.replicate 24 0xFF) ∧
    AnswerTo edgeSink 5 = none ∧ edge.cfg.role = .source ∧ TxRoom 22 edge ∧ TxRoom 11 edge ∧
    7 = ((0x70000000 : Word32).extractLsb' 28 4).toNat ∧ edge.cfg.advertisedPdos[7 - 1]? = some ⟨51150, 10230, 3, 255⟩ ∧
    edge.cfg.softResetReply = .accept ∧ State.reset.cfg.softResetReply = .silent :=
  ⟨rfl, rfl, rfl, rfl, rfl, rfl, by unfold TxRoom; decide, edge_config.2.2.2, rfl, by decide, rfl, by unfold TxRoom; decide,
    by unfold TxRoom; decide, by decide, by decide, rfl, rfl⟩

theorem witness_MessageIdCounts :
    ∃ t, runAll [.resetMsgId, .nextMsgId, .nextMsgId] State.reset = .next t := ⟨_, rfl⟩

theorem witness_SendCommandSendsAndLogs :
    (List.replicate 28 (0 : Byte)).length = 4 * 7 ∧ checkConfig edge.cfg = true ∧ TxRoom (28 + 11) edge ∧
    typeLookup .data 15 = .vendorDefined ∧ MsgName.vendorDefined ≠ .reserved ∧
    (∀ t : BitVec 5, t.toNat < 24 → typeLookup .control t ≠ .request) :=
  ⟨by decide, edge_config.1, edge_config.2.2.1, by decide, by decide, by decide⟩

theorem witness_SoftResetResetsTheCounter :
    State.reset.cfg.softResetReply = .silent ∧ edge.cfg.softResetReply = .accept ∧ edge.env = [] ∧
    checkConfig edge.cfg = true ∧ TxRoom 11 edge :=
  ⟨rfl, rfl, rfl, edge_config.1, by unfold TxRoom; decide⟩

theorem witness_RxStepHandlesAtMostOneMessage :
    busFate State.reset = .completes ∧ (envTick State.reset).phy.rx = [] ∧
    (withRx ([0xE0, 0x03, 0xA3, 1, 2, 3, 4])).phy.rx =
      0xE0 :: (headerBytes bits1 (BitVec.ofNat 3 0) 3 ++ ([] : List Word32).flatMap wordBytes ++ [1, 2, 3, 4] ++ []) ∧
    (∃ v, exec (.dispatch ⟨bits1, 3, []⟩) (withRx []) = .next v ∧ v.result = .unit) ∧
    (∃ v, exec (.dispatch ⟨bits1, 1, [0]⟩) { withRx [] with selects := [some (7, 5)] } = .next v ∧ v.result = .none) ∧
    (∀ x ∈ [(0x05 : Byte)], x ≠ 0xE0 ∧ x ≠ 0xC0 ∧ x ≠ 0x00) ∧ (withRx [0x05, 0x00, 0xE0]).phy.rx = [0x05] ++ 0x00 :: [0xE0] :=
  ⟨by decide, by decide, by decide, next_of_shows (f := State.result) (by decide +kernel),
    next_of_shows (f := State.result) (by decide +kernel), by decide, by decide⟩

theorem witness_IntStepReportsThenDetects :
    (0xDF : Byte).getLsbD 5 = false ∧ (0x20 : Byte).getLsbD 5 = true ∧ Memory.wf edge.phy.regs = true ∧
    RegsMapped edge.phy.regs ∧ checkConfig edge.cfg = true :=
  ⟨by decide, by decide, by decide, by unfold RegsMapped; decide, edge_config.1⟩

/-- P4: CompChange latched and unmasked, both levels 0. -/
def pulled : State :=
  { State.reset with
    ctl := .flow .sink 0, phy := { Phy.powerOn with regs := [(0x02, 0x07), (0x06, 0x04)], intI := 0x20 } }

theorem witness_DetachIsFoundAndEndsTheIteration :
    pulled.env = [] ∧ pulled.phy.rx = [] ∧ intPin pulled.phy = true ∧ pulled.phy.intI.getLsbD 5 = true ∧
    Memory.wf pulled.phy.regs = true ∧ RegsMapped pulled.phy.regs ∧ checkConfig pulled.cfg = true ∧
    StrategyPin (.sink false) pulled.phy.cc1 pulled.phy.cc2 = .none :=
  ⟨rfl, rfl, by decide, by decide, by decide, by unfold RegsMapped; decide, by decide, by decide⟩

theorem witness_SinkRequestsTheChosenPdo :
    ({ edgeSink with selects := [some (6, 10230)] }).selects = some (6, 10230) :: [] ∧
    6 < ((0 : Word32) :: List.replicate 6 0).length ∧ checkConfig edgeSink.cfg = true ∧ TxRoom 15 edgeSink :=
  ⟨rfl, by decide, edge_config.2.1, by unfold TxRoom; decide⟩

theorem witness_SinkPolicyAnswersAreChecked :
    ({ State.reset with selects := [none] }).selects = none :: [] ∧
    ({ State.reset with selects := [some (1, 1500)] }).selects = some (1, 1500) :: [] ∧ [(0x00019096 : Word32)].length ≤ 1 :=
  ⟨rfl, rfl, by decide⟩

theorem witness_VdmRequestsAreAcknowledged :
    edgeSink.env = [] ∧ checkConfig edgeSink.cfg = true ∧ edgeSink.cfg.role = .sink ∧ TxRoom 39 edgeSink ∧
    AnswerTo edgeSink 1 = some (List.replicate 24 0xFF) ∧
    HandsVdm ⟨0xFF01, 0, 1, 0⟩ 0 1 (.vdmDiscoverIdentity ⟨0xFF01, 0, 1⟩) ∧
    HandsVdm ⟨0xFF01, 0, 1, 0⟩ 0 17 (.vdmCmdDpConfigure ⟨0xFF01, 0, 1, 0⟩ 0) :=
  ⟨rfl, edge_config.2.1, rfl, edge_config.2.2.2, rfl, ⟨rfl, rfl, rfl⟩, ⟨rfl, rfl, rfl⟩⟩

theorem witness_OtherVdmsAreNotAnswered :
    HandsVdm ⟨0xFF01, 0, 1, 0⟩ 3 1 (.vdmCtBusy ⟨0xFF01, 0, 1, 0⟩ 1) ∧ AnswerTo State.reset 5 = none ∧
    HandsVdm ⟨0xFF01, 0, 1, 0⟩ 0 5 (.vdmCmdExitMode ⟨0xFF01, 0, 1, 0⟩ 0) ∧
    (0xFF017FFF : Word32).getLsbD 15 = false ∧ source.cfg.role = .source ∧
    (encode (.vdmCmdExitMode ⟨0xFF01, 0, 1, 0⟩ 0)).1 ≠ .op :=
  ⟨⟨rfl, rfl, rfl⟩, by decide, ⟨rfl, rfl, rfl⟩, by decide, rfl, by decide⟩

theorem witness_AdvertisementAndItsCadence :
    edge.env = [] ∧ checkConfig edge.cfg = true ∧ edge.cfg.role = .source ∧ TxRoom 39 edge ∧
    edge.ses.profileAccepted = false ∧ edge.ses.advRetries < edge.cfg.advMaxRetries ∧
    edge.ses.advIters + 1 ≠ edge.cfg.advPeriodIters ∧
    2 + 1 = edge.cfg.advPeriodIters :=
  ⟨rfl, edge_config.1, rfl, edge_config.2.2.1, by decide, by decide, by decide, by decide⟩

theorem witness_AcceptThenPsRdy : edge.env = [] ∧ checkConfig edge.cfg = true ∧ TxRoom 11 edge :=
  ⟨rfl, edge_config.1, by unfold TxRoom; decide⟩

theorem witness_SourceHandlesARequest :
    ((0x70000000 : Word32).extractLsb' 28 4).toNat = 7 ∧ edge.cfg.advertisedPdos[7 - 1]? = some ⟨51150, 10230, 3, 255⟩ ∧
    edge.cfg.advertisedPdos.length < ((0x80000000 : Word32).extractLsb' 28 4).toNat ∧ TxRoom 22 edge ∧
    ({ edge with validates := [true] }).validates = true :: [] :=
  ⟨by decide, by decide, by decide, by unfold TxRoom; decide, rfl⟩

theorem witness_QuietTurnsGoOnOrPause :
    edgeSink.env = [] ∧ edgeSink.phy.rx = [] ∧ intPin edgeSink.phy = false ∧ edgeSink.cfg.role = .sink ∧
    edgeSink.stops.headD false = false ∧ ({ edgeSink with stops := [true] }).stops.headD false = true ∧
    edge.cfg.advMaxRetries ≤ ({ Session.fresh with advRetries := 2 }).advRetries := by decide

theorem witness_SinkSetupConfiguresThePhy :
    edgeSink.env = [] ∧ checkConfig edgeSink.cfg = true ∧ edgeSink.cfg.role = .sink := ⟨rfl, edge_config.2.1, rfl⟩

theorem witness_SourceSetupSendsTheFirstAdvertisement :
    edge.env = [] ∧ checkConfig edge.cfg = true ∧ edge.cfg.role = .source :=
  ⟨rfl, edge_config.1, rfl⟩

/-- P1, iteration 1, with the host's answer of `SELECT_PDO_FOR_VOLTAGE`. -/
def scenario : State :=
  { withRx [0xE0, 0x11, 0xA1, 0x96, 0x90, 0x01, 0x00, 0x72, 0xF1, 0x2C, 0x48] with
    ctl := .flow .sink 0, selects := [selectPdoForVoltage [.fixed ⟨5000, 1500, 0, 0⟩] 5] }

theorem witness_EndToEndSinkScenario :
    scenario.env = [] ∧ checkConfig scenario.cfg = true ∧ scenario.cfg.role = .sink ∧ scenario.cfg.rev = 2 ∧
    scenario.cfg.sinkRoleBits = (0, 0) ∧ TxRoom 15 scenario ∧ intPin scenario.phy = false ∧ scenario.ses.msgId = none ∧
    scenario.phy.rx = [0xE0, 0x11, 0xA1, 0x96, 0x90, 0x01, 0x00] ++ [0x72, 0xF1, 0x2C, 0x48] ∧
    scenario.stops.headD false = false :=
  ⟨rfl, by decide, rfl, rfl, rfl, by unfold TxRoom; decide, by decide, rfl, rfl, rfl⟩

theorem witness_PhyChangesBetweenTransactions :
    (withRx [1]).phy.rx.length + 79 ≤ (withRx [1]).cfg.rxFifoBytes ∧
    (regRead Phy.powerOn.regs 0x07).getLsbD 0 = false ∧ (regRead (withReg 0x07 0x01).phy.regs 0x07).getLsbD 0 = true ∧
    (regRead Phy.powerOn.regs 0x03).getLsbD 2 = false ∧ (regRead (withReg 0x03 0x45).phy.regs 0x03).getLsbD 2 = true := by
  decide

end Sys2Proof.Tests
end

section
/-! Proofs of the statements of `00_scope.md`: what a failing transaction leaves (O26), and the checks of the sink's policy
answers (O47). -/

namespace Sys2Proof.Machine

/-! ## Transactions that fail -/

/-- An entry of the schedule without changes leaves the PHY alone. -/
theorem envTick_phy_of_idle {s : State} {fate : BusFate} {rest : List EnvStep} (h : s.env = { bus := fate } :: rest) :
    (envTick s).phy = s.phy := by
  simp only [envTick, h, phyActs]

theorem busFate_cons {s : State} {e : EnvStep} {rest : List EnvStep} (h : s.env = e :: rest) : busFate s = e.bus := by
  simp only [busFate, h]

/-- A completed write moves nothing but the PHY, which takes the write's effect (R60). -/
theorem memWrite_completes (op : Byte) {addr : Byte} {v : List Byte} {s : State} {q : Phy} (hf : busFate s = .completes)
    (hp : phyWrite addr v (envTick s) = .done () { envTick s with phy := q }) :
    ∃ t, evalOp (memWrite op addr v) s = .ok () t ∧ Moved [.wr addr v] s t ∧ t.phy = q ∧ t.env = s.env.tail :=
  ⟨_, by simp only [evalOp_memWrite, busWrite, hf, hp, answered],
    ((moved_envTick s).trans (moved_phy _ q)).trans (moved_logPrim _ _), rfl, envTick_env s⟩

/-- A completed one-byte read moves nothing but the PHY, which takes the read's effect (R60). -/
theorem readReg_completes (op : Byte) {addr b : Byte} {s : State} {q : Phy} (hf : busFate s = .completes)
    (hp : phyRead addr 1 (envTick s) = .done [b] { envTick s with phy := q }) :
    ∃ t, evalOp (readReg op addr) s = .ok b t ∧ Moved [.rd addr [b]] s t ∧ t.phy = q ∧ t.env = s.env.tail :=
  ⟨_, by simp only [readReg, evalOp_bind, evalOp_memRead, busRead, hf, hp, answered, answeredBytes, evalOp_pure,
      List.headD_cons],
    ((moved_envTick s).trans (moved_phy _ q)).trans (moved_logPrim _ _), rfl, envTick_env s⟩

/-- A failed write raises BusError and moves nothing but the PHY, which takes the write's own effect or not (R63, R341). -/
theorem memWrite_fails (op : Byte) {addr : Byte} {v : List Byte} {s : State} {q : Phy} (hf : busFate s ≠ .completes)
    (hp : phyWrite addr v (envTick s) = .done () { envTick s with phy := q }) :
    ∃ u, evalOp (memWrite op addr v) s = .exit (.error (.bus addr .write v.length op)) u ∧
      Moved [.busFailed addr .write v.length] s u ∧
      u.phy = if busFate s = .failsDone then q else (envTick s).phy := by
  cases hb : busFate s with
  | completes => exact absurd hb hf
  | failsDone =>
    exact ⟨_, by simp only [evalOp_memWrite, busWrite, hb, hp, failedDone],
      ((moved_envTick s).trans (moved_phy _ q)).trans (moved_logPrim _ _), rfl⟩
  | failsUndone =>
    exact ⟨_, by simp only [evalOp_memWrite, busWrite, hb], (moved_envTick s).trans (moved_logPrim _ _), rfl⟩

/-- A failed read raises BusError and moves nothing but the PHY, which takes the read's own effect or not (R63, R341). -/
theorem memRead_fails (op : Byte) {addr : Byte} {n : Nat} {bs : List Byte} {s : State} {q : Phy}
    (hf : busFate s ≠ .completes) (hp : phyRead addr n (envTick s) = .done bs { envTick s with phy := q }) :
    ∃ u, evalOp (memRead op addr n) s = .exit (.error (.bus addr .read n op)) u ∧ Moved [.busFailed addr .read n] s u ∧
      u.phy = if busFate s = .failsDone then q else (envTick s).phy := by
  cases hb : busFate s with
  | completes => exact absurd hb hf
  | failsDone =>
    exact ⟨_, by simp only [evalOp_memRead, busRead, hb, hp, failedDone],
      ((moved_envTick s).trans (moved_phy _ q)).trans (moved_logPrim _ _), rfl⟩
  | failsUndone =>
    exact ⟨_, by simp only [evalOp_memRead, busRead, hb], (moved_envTick s).trans (moved_logPrim _ _), rfl⟩

/-- A failed one-byte read is a failed read. -/
theorem readReg_fails (op : Byte) {addr : Byte} {bs : List Byte} {s : State} {q : Phy} (hf : busFate s ≠ .completes)
    (hp : phyRead addr 1 (envTick s) = .done bs { envTick s with phy := q }) :
    ∃ u, evalOp (readReg op addr) s = .exit (.error (.bus addr .read 1 op)) u ∧ Moved [.busFailed addr .read 1] s u ∧
      u.phy = if busFate s = .failsDone then q else (envTick s).phy := by
  obtain ⟨u, he, hm, hu⟩ := memRead_fails op hf hp
  exact ⟨u, by rw [readReg, evalOp_bind, he], hm, hu⟩

/-- An operation that a failing transaction ends, run as an instruction: the error surfaces, after the
primitives `ps` (R350). -/
theorem runOp_busFails {α : Type} (value : α → Value) {m : Op α} {s u : State} {addr op : Byte} {dir : Dir} {n : Nat}
    {ps : List Prim} (he : evalOp m s = .exit (.error (.bus addr dir n op)) u)
    (hm : Moved (ps ++ [.busFailed addr dir n]) s u) :
    runOp value m s = .next (surface (.bus addr dir n op) u) ∧
      BusFails s (surface (.bus addr dir n op) u) addr dir n op ps := by
  refine ⟨by rw [runOp, he, conclude_exit, takeExit_error], rfl, rfl, hm.ses, ?_, ?_⟩
  · rw [Emits, surface_diag, hm.diag]
  · rw [Does, surface_trace, hm.trace]; simp

/-! ### The TX FIFO -/

/-- The PHY takes a FIFO write there is room for (R65). -/
theorem phyWrite_fifo {v : List Byte} {s : State} (hr : TxRoom v.length s) :
    phyWrite 0x43 v s = .done () { s with phy := { s.phy with tx := s.phy.tx ++ v } } := by
  have hn : ¬ s.cfg.txFifoBytes.val < s.phy.tx.length + v.length := Nat.not_lt.2 hr
  simp only [phyWrite, if_true, if_neg hn]

theorem sopTokens_length (n : Nat) : (sopTokens n).length = 5 := rfl

/-- The PACKSYM token of a legal payload (R102): the count added to `0x80`. -/
theorem sopTokens_eq {n : Nat} (h : n ≤ 30) : sopTokens n = [0x12, 0x12, 0x12, 0x13, BitVec.ofNat 8 (128 + n)] := by
  have all : ∀ m : Fin 31, (0x80#8 ||| BitVec.ofNat 8 m) = BitVec.ofNat 8 (128 + m) := by decide
  have hn := all ⟨n, by omega⟩
  simp only [sopTokens, List.cons.injEq, and_true, true_and]
  exact hn

/-- A legal payload whose write fails: the SOP tokens are in the FIFO, the payload is or is not, nothing follows (R353). -/
theorem opSendPacket_payload_fails {p : List Byte} {s : State} {fate : BusFate} {rest : List EnvStep}
    (henv : s.env = {} :: { bus := fate } :: rest) (hf : fate ≠ .completes) (hl : legalLength p.length = true)
    (hr : TxRoom (p.length + 9) s) :
    ∃ u, evalOp (opSendPacket p) s = .exit (.error (.bus 0x43 .write p.length 0x16)) u ∧
      Moved ([.wr 0x43 (sopTokens p.length)] ++ [.busFailed 0x43 .write p.length]) s u ∧
      u.phy = { s.phy with tx := s.phy.tx ++ sopTokens p.length ++ if fate = .failsDone then p else [] } := by
  have hroom : s.phy.tx.length + (p.length + 9) ≤ s.cfg.txFifoBytes.val := hr
  have hsop : TxRoom (sopTokens p.length).length (envTick s) := by
    rw [TxRoom, envTick_phy_of_idle henv, envTick_cfg, sopTokens_length]; omega
  obtain ⟨t, he, hm, ht, htenv⟩ := memWrite_completes 0x16 (busFate_cons henv) (phyWrite_fifo hsop)
  rw [henv, List.tail_cons] at htenv
  rw [envTick_phy_of_idle henv] at ht
  have hpayload : TxRoom p.length (envTick t) := by
    rw [TxRoom, envTick_phy_of_idle htenv, ht, envTick_cfg, hm.cfg, List.length_append, sopTokens_length]; omega
  have hfate := busFate_cons htenv
  obtain ⟨u, he', hm', hu⟩ := memWrite_fails 0x16 (hfate.symm ▸ hf) (phyWrite_fifo hpayload)
  refine ⟨u, ?_, hm.trans hm', ?_⟩
  · simp only [opSendPacket, hl, opRequire_true, evalOp_seq, he, he']
  · rw [hu, hfate, envTick_phy_of_idle htenv, ht]
    by_cases hd : fate = .failsDone <;> simp [hd]

/-! ### The interrupt latches -/

/-- Reading InterruptA clears it (R63). -/
theorem phyRead_intA (s : State) : phyRead 0x3E 1 s = .done [s.phy.intA] { s with phy := { s.phy with intA := 0 } } := rfl

/-- Reading InterruptB clears it (R63). -/
theorem phyRead_intB (s : State) : phyRead 0x3F 1 s = .done [s.phy.intB] { s with phy := { s.phy with intB := 0 } } := rfl

/-- A `READ_INT` whose second read fails has cleared InterruptA, InterruptB or not, and leaves Interrupt alone (R353). -/
theorem opReadInt_second_fails {s : State} {fate : BusFate} {rest : List EnvStep}
    (henv : s.env = {} :: { bus := fate } :: rest) (hf : fate ≠ .completes) :
    ∃ u, evalOp opReadInt s = .exit (.error (.bus 0x3F .read 1 0x13)) u ∧
      Moved ([.rd 0x3E [s.phy.intA]] ++ [.busFailed 0x3F .read 1]) s u ∧
      u.phy = { s.phy with intA := 0, intB := if fate = .failsDone then 0 else s.phy.intB } := by
  obtain ⟨t, he, hm, ht, htenv⟩ := readReg_completes 0x13 (busFate_cons henv) (phyRead_intA (envTick s))
  rw [henv, List.tail_cons] at htenv
  rw [envTick_phy_of_idle henv] at hm ht
  have hfate := busFate_cons htenv
  obtain ⟨u, he', hm', hu⟩ := readReg_fails 0x13 (hfate.symm ▸ hf) (phyRead_intB (envTick t))
  refine ⟨u, ?_, hm.trans hm', ?_⟩
  · simp only [opReadInt, evalOp_bind, he, he']
  · rw [hu, hfate, envTick_phy_of_idle htenv, ht]
    by_cases hd : fate = .failsDone <;> simp [hd]

/-! ### Read-modify-writes -/

section ReadModifyWrite

variable {op addr clear set : Byte} {info : RegInfo} {s : State}

/-- Reading an `R/W` register changes nothing (R63). -/
theorem phyRead_rw (hi : regInfo addr.toNat = some info) (ha : info.access = .readWrite) (h43 : addr ≠ 0x43) :
    phyRead addr 1 s = .done [regRead s.phy.regs addr.toNat] s := by
  simp only [phyRead, if_neg h43, ne_eq, not_true, if_false, hi, ha]

/-- Writing an `R/W` register stores its bits and performs its actions (R63, R68). -/
theorem phyWrite_rw (v : Byte) (hi : regInfo addr.toNat = some info) (ha : info.access = .readWrite) (h43 : addr ≠ 0x43) :
    phyWrite addr [v] s = .done () { s with
      phy := writeAction s.cfg addr v { s.phy with regs := regWrite s.phy.regs addr.toNat (storedBits info v) } } := by
  simp only [phyWrite, if_neg h43, hi, ha]

/-- A read-modify-write whose read fails writes nothing (R353). -/
theorem rmw_read_fails (hf : busFate s ≠ .completes) (hi : regInfo addr.toNat = some info)
    (ha : info.access = .readWrite) (h43 : addr ≠ 0x43) :
    ∃ u, evalOp (rmw op addr clear set) s = .exit (.error (.bus addr .read 1 op)) u ∧
      Moved [.busFailed addr .read 1] s u ∧ u.phy = (envTick s).phy := by
  obtain ⟨u, he, hm, hu⟩ := readReg_fails op hf (q := (envTick s).phy) (phyRead_rw hi ha h43)
  exact ⟨u, by rw [rmw, evalOp_bind, he], hm, by rw [hu, ite_self]⟩

/-- A read-modify-write whose write fails has written the register, with the write's actions, or not (R63, R353). -/
theorem rmw_write_fails {fate : BusFate} {rest : List EnvStep} (henv : s.env = {} :: { bus := fate } :: rest)
    (hf : fate ≠ .completes) (hi : regInfo addr.toNat = some info) (ha : info.access = .readWrite) (h43 : addr ≠ 0x43) :
    ∃ u, evalOp (rmw op addr clear set) s = .exit (.error (.bus addr .write 1 op)) u ∧
      Moved ([.rd addr [regRead s.phy.regs addr.toNat]] ++ [.busFailed addr .write 1]) s u ∧
      u.phy = if fate = .failsDone then
        writeAction s.cfg addr ((regRead s.phy.regs addr.toNat &&& ~~~clear) ||| set) { s.phy with
          regs := regWrite s.phy.regs addr.toNat
            (storedBits info ((regRead s.phy.regs addr.toNat &&& ~~~clear) ||| set)) }
        else s.phy := by
  obtain ⟨t, he, hm, ht, htenv⟩ :=
    readReg_completes op (busFate_cons henv) (q := (envTick s).phy) (phyRead_rw hi ha h43)
  rw [henv, List.tail_cons] at htenv
  rw [envTick_phy_of_idle henv] at he hm ht
  have hfate := busFate_cons htenv
  obtain ⟨u, he', hm', hu⟩ := memWrite_fails op (hfate.symm ▸ hf)
    (phyWrite_rw (s := envTick t) ((regRead s.phy.regs addr.toNat &&& ~~~clear) ||| set) hi ha h43)
  refine ⟨u, ?_, hm.trans hm', ?_⟩
  · rw [rmw, evalOp_bind, he]
    simp only [writeReg, he', List.length_cons, List.length_nil]
  · rw [hu, hfate, envTick_phy_of_idle htenv, envTick_cfg, hm.cfg, ht]

end ReadModifyWrite

/-! ### `SET_WAKE` -/

/-- The map's row of Control2 (R42): an `R/W` register without bits that act or read 0. -/
def control2 : RegInfo := ⟨0x08, .readWrite, 0x02, 0x00, 0x00⟩

theorem regInfo_control2 : regInfo (0x08 : Byte).toNat = some control2 := rfl

/-- A write of Control2 stores the whole byte and does nothing else (R42). -/
theorem control2_write (cfg : Cfg) (v : Byte) (p : Phy) :
    writeAction cfg 0x08 v { p with regs := regWrite p.regs (0x08 : Byte).toNat (storedBits control2 v) } =
      { p with regs := regWrite p.regs 0x08 v } := by
  have hv : storedBits control2 v = v := BitVec.and_allOnes
  rw [hv]; rfl

/-- The byte `SET_WAKE` writes to Control2 for the byte it read (R170). -/
theorem setWake_byte (en : Bool) (v : Byte) :
    (v &&& ~~~0x08) ||| (if en then 0x08 else 0x00) = if en then v ||| 0x08 else v &&& 0xF7 := by
  cases en with
  | false => exact BitVec.or_zero
  | true =>
    have absorbed : ∀ x m : Byte, x &&& ~~~m ||| m = x ||| m := fun x m => by
      ext i; simp only [BitVec.getElem_or, BitVec.getElem_and, BitVec.getElem_not]; cases x[i] <;> cases m[i] <;> rfl
    exact absorbed v 0x08

/-- A `SET_WAKE` whose read fails changes nothing of the PHY (R353). -/
theorem opSetWake_read_fails (en : Bool) {s : State} {fate : BusFate} {rest : List EnvStep}
    (henv : s.env = { bus := fate } :: rest) (hf : fate ≠ .completes) :
    ∃ u, evalOp (opSetWake en) s = .exit (.error (.bus 0x08 .read 1 0x11)) u ∧ Moved [.busFailed 0x08 .read 1] s u ∧
      u.phy = s.phy := by
  have hfate : busFate s ≠ .completes := by rwa [busFate_cons henv]
  obtain ⟨u, he, hm, hu⟩ := rmw_read_fails hfate regInfo_control2 rfl (by decide)
  exact ⟨u, he, hm, by rw [hu, envTick_phy_of_idle henv]⟩

/-- A `SET_WAKE` whose write fails has written Control2 or not (R63, R353). -/
theorem opSetWake_write_fails (en : Bool) {s : State} {fate : BusFate} {rest : List EnvStep}
    (henv : s.env = {} :: { bus := fate } :: rest) (hf : fate ≠ .completes) :
    ∃ u, evalOp (opSetWake en) s = .exit (.error (.bus 0x08 .write 1 0x11)) u ∧
      Moved ([.rd 0x08 [regRead s.phy.regs 0x08]] ++ [.busFailed 0x08 .write 1]) s u ∧
      u.phy = if fate = .failsDone then
        { s.phy with
          regs := regWrite s.phy.regs 0x08
            (if en then regRead s.phy.regs 0x08 ||| 0x08 else regRead s.phy.regs 0x08 &&& 0xF7) }
        else s.phy := by
  obtain ⟨u, he, hm, hu⟩ := rmw_write_fails henv hf regInfo_control2 rfl (by decide)
  rw [setWake_byte, control2_write] at hu
  exact ⟨u, he, hm, hu⟩

/-- A write of Control2 whose outcome is open: the register has the byte or not, the rest of the PHY is as before. -/
theorem control2_written_or_not {s t : State} {w : Byte} {done : Prop} [Decidable done]
    (hwf : Memory.wf s.phy.regs = true)
    (ht : t.phy = if done then { s.phy with regs := regWrite s.phy.regs 0x08 w } else s.phy) :
    regRead t.phy.regs 0x08 = (if done then w else regRead s.phy.regs 0x08) ∧ KeepsRegs [0x08] s t ∧
      KeepsFifos s t ∧ KeepsLatches s t := by
  by_cases hd : done
  · rw [if_pos hd] at ht ⊢
    refine ⟨by rw [ht]; exact regRead_regWrite_same _ _ _ hwf, fun a ha => ?_, ?_, ?_⟩
    · rw [ht]
      exact regRead_regWrite_other _ _ (by simpa using ha)
    · constructor <;> rw [ht]
    · constructor <;> rw [ht]
  · rw [if_neg hd] at ht ⊢
    refine ⟨by rw [ht], fun a _ => by rw [ht], ?_, ?_⟩
    · constructor <;> rw [ht]
    · constructor <;> rw [ht]

/-- Settles O26: each operation's run up to the failing transaction, then the error surfaces. -/
theorem failedPayloadWriteLeavesTheSopTokens : Obligations.FailedPayloadWriteLeavesTheSopTokens := by
  refine ⟨fun s p k fate hp hk hroom henv hf => ?_, fun s fate henv hf => ?_, fun s fate en w hf hwf hw => ⟨?_, ?_⟩⟩
  · have hl : legalLength p.length = true := by simp only [legalLength, decide_eq_true_eq]; omega
    obtain ⟨u, he, hm, hu⟩ := opSendPacket_payload_fails henv hf hl hroom
    rw [sopTokens_eq (by omega)] at hm hu
    obtain ⟨hx, hb⟩ := runOp_busFails (fun _ => .unit) he hm
    exact ⟨_, hx, hb, hu⟩
  · obtain ⟨u, he, hm, hu⟩ := opReadInt_second_fails henv hf
    obtain ⟨hx, hb⟩ := runOp_busFails (fun r => .intBytes r.1 r.2.1 r.2.2) he hm
    exact ⟨_, hx, hb, hu⟩
  · intro henv
    obtain ⟨u, he, hm, hu⟩ := opSetWake_read_fails en henv hf
    obtain ⟨hx, hb⟩ := runOp_busFails (fun _ => .unit) (ps := []) he hm
    exact ⟨_, hx, hb, hu⟩
  · intro henv
    obtain ⟨u, he, hm, hu⟩ := opSetWake_write_fails en henv hf
    rw [← hw] at hu
    obtain ⟨hx, hb⟩ := runOp_busFails (fun _ => .unit) he hm
    exact ⟨_, hx, hb, control2_written_or_not hwf hu⟩

/-! ## The sink's policy answers -/

/-- A queued answer is taken, and the exchange recorded (R13). -/
theorem hostSelects_queued {s : State} {a : Option (Nat × Nat)} {more : List (Option (Nat × Nat))}
    (h : s.selects = a :: more) (pdos : List Pdo) :
    hostSelects pdos s = (a, logPrim (.ask (.selectPdo pdos)) { s with selects := more }) := by
  simp only [hostSelects, h]

/-- The answer None ends the request with an event (R291). -/
theorem opSinkSendRequest_none {s : State} {more : List (Option (Nat × Nat))} (h : s.selects = none :: more)
    (pdos : List Pdo) :
    evalOp (opSinkSendRequest pdos) s = .ok ()
      (emitEvent .noProfileSelected (logPrim (.ask (.selectPdo pdos)) { s with selects := more })) := by
  simp only [opSinkSendRequest, evalOp_bind, evalOp_askSelect, hostSelects_queued h, evalOp_emit]

/-- An answer beyond the list, or one the RDO cannot carry, is refused right after the exchange (R291, R353). -/
theorem opSinkSendRequest_bad {s : State} {index current : Nat} {more : List (Option (Nat × Nat))}
    (h : s.selects = some (index, current) :: more) {pdos : List Pdo}
    (hbad : (decide (index < pdos.length) && encodableRequest index current) = false) :
    evalOp (opSinkSendRequest pdos) s = .exit (.error (.caller (.badPolicyAnswer index current) 0x46))
      (logPrim (.ask (.selectPdo pdos)) { s with selects := more }) := by
  simp only [opSinkSendRequest, evalOp_bind, evalOp_askSelect, hostSelects_queued h, hbad, opRequire_false, evalOp_raise]

/-- The answers `SINK_SEND_REQUEST` refuses (R291). -/
theorem request_refused {len index current : Nat}
    (h : len ≤ index ∨ 6 < index ∨ current % 10 ≠ 0 ∨ 10230 < current) :
    (decide (index < len) && encodableRequest index current) = false := by
  simp only [encodableRequest, Bool.and_eq_false_iff, decide_eq_false_iff_not]; omega

/-! ## Operations that never stop the machine -/

/-- Whatever the state and the schedule, the operation ends with a result or an exit: it stops at no fault and no refusal. -/
def NeverHalts {α : Type} (m : Op α) : Prop := ∀ s h, evalOp m s ≠ .halt h

/-- Run as an instruction, such an operation answers a next state. -/
theorem NeverHalts.next {α : Type} {m : Op α} (hm : NeverHalts m) (value : α → Value) (s : State) :
    ∃ t, runOp value m s = .next t := by
  cases he : evalOp m s with
  | ok a t => exact ⟨_, by rw [runOp, he, conclude_ok]⟩
  | exit x t => exact ⟨_, by rw [runOp, he, conclude_exit]⟩
  | halt h => exact absurd he (hm s h)

theorem NeverHalts.bind {α β : Type} {m : Op α} {f : α → Op β} (hm : NeverHalts m) (hf : ∀ a, NeverHalts (f a)) :
    NeverHalts (opBind m f) := by
  intro s h
  rw [evalOp_bind]
  cases he : evalOp m s with
  | ok a t => exact hf a t h
  | exit x t => exact nofun
  | halt h' => exact absurd he (hm s h')

theorem NeverHalts.seq {α β : Type} {m : Op α} {k : Op β} (hm : NeverHalts m) (hk : NeverHalts k) :
    NeverHalts (opSeq m k) := hm.bind fun _ => hk

theorem NeverHalts.raise {α : Type} (e : Err) : NeverHalts (opRaise e : Op α) := fun _ _ => nofun

theorem NeverHalts.require {α : Type} (ok : Bool) (e : Err) {k : Op α} (hk : NeverHalts k) :
    NeverHalts (opRequire ok e k) := by
  cases ok with
  | false => exact .raise e
  | true => exact hk

theorem NeverHalts.codec {α : Type} (op : Byte) (r : Except CodecError α) : NeverHalts (opCodec op r) := by
  cases r with
  | ok a => exact fun _ _ => nofun
  | error e => exact .raise _

theorem NeverHalts.cfg : NeverHalts opCfg := fun _ _ => nofun

theorem NeverHalts.modify (f : State → State) : NeverHalts (opModify f) := fun _ _ => nofun

theorem NeverHalts.emit (e : Event) : NeverHalts (emit e) := fun _ _ => nofun

theorem NeverHalts.askSelect (pdos : List Pdo) : NeverHalts (askSelect pdos) := fun _ _ => nofun

/-- A FIFO write completes or raises BusError, also where it would overflow (R65, R341). -/
theorem NeverHalts.fifoWrite (op : Byte) (v : List Byte) : NeverHalts (memWrite op 0x43 v) := by
  intro s h
  have answers : phyWrite 0x43 v (envTick s) = .busError ∨ ∃ u, phyWrite 0x43 v (envTick s) = .done () u := by
    by_cases hroom : TxRoom v.length (envTick s)
    · exact .inr ⟨_, phyWrite_fifo hroom⟩
    · exact .inl (by simp only [phyWrite, if_true, if_pos (Nat.lt_of_not_le hroom)])
  rw [evalOp_memWrite, busWrite]
  cases busFate s with
  | failsUndone => exact nofun
  | completes | failsDone => obtain ha | ⟨u, ha⟩ := answers <;> rw [ha] <;> exact nofun

theorem NeverHalts.sendPacket (p : List Byte) : NeverHalts (opSendPacket p) :=
  .require _ _ (.seq (.fifoWrite _ _) (.seq (.fifoWrite _ _) (.fifoWrite _ _)))

theorem NeverHalts.nextMsgId : NeverHalts opNextMsgId := fun _ _ => nofun

theorem NeverHalts.sendCommand (command : MsgName) (dataObjects : List Byte) :
    NeverHalts (opSendCommand command dataObjects) :=
  .bind .nextMsgId fun _ => .bind .cfg fun _ => .bind (.codec _ _) fun p => .seq (.sendPacket p) (.modify _)

/-- Whatever the host answers, the sink's request ends with a result or an exit (R291). -/
theorem NeverHalts.sinkSendRequest (pdos : List Pdo) : NeverHalts (opSinkSendRequest pdos) := by
  refine .bind (.askSelect pdos) fun answer => ?_
  cases answer with
  | none => exact .emit _
  | some choice => exact .require _ _ (.bind (.codec _ _) fun _ => .seq (.sendCommand _ _) (.modify _))

/-- Settles O47: the run of the request for the answer None and for a refused answer; and that the request never halts. -/
theorem sinkPolicyAnswersAreChecked : Obligations.SinkPolicyAnswersAreChecked := by
  refine ⟨fun s ws more => ⟨fun h => ?_, fun index current h hbad => ?_⟩, fun s b w ws => ⟨?_, ?_⟩⟩
  · have he : exec (.sinkSendRequest ws) s = .next _ := congrArg (conclude _) (opSinkSendRequest_none h (parsePdoList ws))
    exact ⟨_, he, rfl, rfl, rfl, rfl, rfl, rfl⟩
  · have hlen : (parsePdoList ws).length = ws.length := List.length_map _
    have hrun := opSinkSendRequest_bad h (pdos := parsePdoList ws) (hlen.symm ▸ request_refused hbad)
    have he : exec (.sinkSendRequest ws) s = .next _ := congrArg (conclude _) hrun
    exact ⟨_, he, rfl, rfl, rfl, rfl⟩
  · exact (NeverHalts.sinkSendRequest (parsePdoList ws)).next (fun _ => .unit) s
  · exact (NeverHalts.sinkSendRequest _).next (fun _ => .unit) s

end Sys2Proof.Machine
end

section
/-! Proofs of the statements of `30_encoding.md`, first part: the decoder (O2, O4), the parsing operations and the rows
of data objects (O30, O37), the building operations (O27, O28, O32). -/

namespace Sys2Proof.Machine

/-! ## The decoder -/

/-- The operation codes without a reader are the ones R130 leaves unassigned. -/
theorem opReader_eq_none_iff (code : Byte) : opReader code = none ↔
    ¬ ((0x01 ≤ code.toNat ∧ code.toNat ≤ 0x16) ∨ (0x20 ≤ code.toNat ∧ code.toNat ≤ 0x2C) ∨
       (0x30 ≤ code.toNat ∧ code.toNat ≤ 0x33) ∨ (0x40 ≤ code.toNat ∧ code.toNat ≤ 0x56) ∨
       (0x60 ≤ code.toNat ∧ code.toNat ≤ 0x63)) := by
  rw [← Option.isNone_iff_eq_none]
  revert code
  decide

/-- The decoder finds a code unassigned exactly where it has no reader for it, whatever follows. -/
theorem decodeOp_unassigned_iff (code : Byte) (rest : List Byte) :
    decode .op (code :: rest) = .error (.unassignedCode code) ↔ opReader code = none := by
  simp only [decode, decodeOp]
  cases opReader code with
  | none => simp
  | some g => cases hg : g rest <;> simp [hg]

/-- An invocation whose bytes are no encoding is refused, in every control state. -/
theorem step_of_decode_error {s : State} {inv : Invocation} {e : DecodeError} (hp : s.port = some inv)
    (he : decode inv.format inv.bytes = .error e) : step s = .refused (.noEncoding (errorNumber e)) := by
  simp only [step, hp, runInvocation, he]

/-- Settles O2: the codes without a reader, and the refusal of what does not decode. -/
theorem unassignedCodesAreRefused : Obligations.UnassignedCodesAreRefused :=
  ⟨fun code rest => (decodeOp_unassigned_iff code rest).trans (opReader_eq_none_iff code),
    fun _ _ _ hp he => ⟨_, step_of_decode_error hp he⟩⟩

/-- Settles O4: each written word, evaluated. -/
theorem writtenWordsDecode : Obligations.WrittenWordsDecode :=
  ⟨rfl, rfl, rfl, rfl, rfl, rfl, rfl, rfl, rfl, rfl, rfl⟩

/-! ## Bit fields -/

/-- The field `W[hi:lo]` is the slice of those bits. -/
theorem fld_eq_extractLsb' {n : Nat} (w : BitVec n) (hi lo : Nat) :
    fld w hi lo = (w.extractLsb' lo (hi + 1 - lo)).toNat := by
  rw [fld, BitVec.extractLsb'_toNat, Nat.shiftRight_eq_div_pow]

/-- A field as a bit vector of its own width is the slice. -/
theorem ofNat_fld {n : Nat} (w : BitVec n) (hi lo : Nat) :
    BitVec.ofNat (hi + 1 - lo) (fld w hi lo) = w.extractLsb' lo (hi + 1 - lo) := by
  rw [fld_eq_extractLsb', BitVec.ofNat_toNat, BitVec.setWidth_eq]

/-- A one-bit field is 1 exactly where the bit is set. -/
theorem fld_one_bit_iff {n : Nat} (w : BitVec n) (i : Nat) : fld w i i = 1 ↔ w.getLsbD i = true := by
  rw [fld, BitVec.getLsbD, Nat.testBit_eq_decide_div_mod_eq, decide_eq_true_eq, Nat.add_sub_cancel_left, Nat.pow_one]

/-! ## The parsing operations (R212, R217, R221) -/

/-- `PARSE_PDO` reads the layout its type bits select (R117 to R121). -/
theorem parsePdo_eq (w : Word32) : parsePdo w = ParsedPdo w := by
  have type_of_fld : ∀ k : BitVec 2, fld w 31 30 = k.toNat → w.extractLsb' 30 2 = k := fun k h =>
    BitVec.eq_of_toNat_eq (by rw [← h, fld_eq_extractLsb'])
  have hlt : fld w 31 30 < 4 := Nat.mod_lt _ (by decide)
  obtain h | h | h | h : fld w 31 30 = 0 ∨ fld w 31 30 = 1 ∨ fld w 31 30 = 2 ∨ fld w 31 30 = 3 := by omega
  · simp [parsePdo, ParsedPdo, h, type_of_fld 0#2 h, fixedPdoOf, fld_eq_extractLsb']
  · simp [parsePdo, ParsedPdo, h, type_of_fld 1#2 h, fld_eq_extractLsb']
  · simp [parsePdo, ParsedPdo, h, type_of_fld 2#2 h, fld_eq_extractLsb']
  · simp [parsePdo, ParsedPdo, h, type_of_fld 3#2 h, fld_eq_extractLsb']

/-- `PARSE_VDM_HEADER` reads the layout bit 15 selects (R122, R123). -/
theorem parseVdmHeader_eq (w : Word32) : parseVdmHeader w = ParsedVdm w := by
  simp only [parseVdmHeader, ParsedVdm, fld_one_bit_iff]
  exact ite_congr rfl (fun _ => by
    rw [← ofNat_fld w 31 16, ← ofNat_fld w 14 11, ← ofNat_fld w 10 8, ← ofNat_fld w 7 6, ← ofNat_fld w 4 0]) fun _ => by
    rw [← ofNat_fld w 31 16, ← ofNat_fld w 14 0]

/-- `PARSE_REQUEST` reads the layout of an RDO (R126). -/
theorem parseRequest_eq (w : Word32) : parseRequest w = ParsedRequest w := by
  simp only [parseRequest, ParsedRequest, fld_eq_extractLsb']

/-- A pure operation changes nothing but the result (R223). -/
theorem runOp_pure {α : Type} (value : α → Value) (a : α) (s : State) :
    runOp value (opPure a) s = .next (PureResult s (value a)) := rfl

/-- Settles O30: each parsing operation is pure and reads its layout. -/
theorem parsingReadsTheLayouts : Obligations.ParsingReadsTheLayouts := by
  intro s w ws
  refine ⟨?_, ?_, ?_, ?_⟩
  · rw [← parsePdo_eq]; rfl
  · rw [← funext parsePdo_eq]; rfl
  · rw [← parseVdmHeader_eq]; rfl
  · rw [← parseRequest_eq]; rfl

/-! ## The rows of data objects -/

/-- The value of a concatenation. -/
theorem toNat_append_eq {v w : Nat} (x : BitVec v) (y : BitVec w) : (x ++ y).toNat = x.toNat * 2 ^ w + y.toNat := by
  rw [BitVec.toNat_append, ← Nat.shiftLeft_add_eq_or_of_lt y.isLt, Nat.shiftLeft_eq]

/-- What a word whose value is built up like a structured VDM header parses to (R122). -/
theorem parsedVdm_of_toNat {w : Word32} {svid v p ct r c : Nat} (hv : v < 16) (hp : p < 8) (hct : ct < 4) (hr : r < 2)
    (hc : c < 32) (hw : w.toNat = svid * 2 ^ 16 + 2 ^ 15 + v * 2 ^ 11 + p * 2 ^ 8 + ct * 2 ^ 6 + r * 2 ^ 5 + c) :
    ParsedVdm w = .structured (BitVec.ofNat 16 svid) (BitVec.ofNat 4 v) (BitVec.ofNat 3 p) (BitVec.ofNat 2 ct)
      (BitVec.ofNat 5 c) := by
  have h15 : fld w 15 15 = 1 := by rw [fld]; omega
  rw [ParsedVdm, if_pos ((fld_one_bit_iff w 15).1 h15), ← ofNat_fld w 31 16, ← ofNat_fld w 14 11, ← ofNat_fld w 10 8,
    ← ofNat_fld w 7 6, ← ofNat_fld w 4 0]
  have h1 : fld w 31 16 = svid := by rw [fld]; omega
  have h2 : fld w 14 11 = v := by rw [fld]; omega
  have h3 : fld w 10 8 = p := by rw [fld]; omega
  have h4 : fld w 7 6 = ct := by rw [fld]; omega
  have h5 : fld w 4 0 = c := by rw [fld]; omega
  rw [h1, h2, h3, h4, h5]

/-- A structured VDM header parses to its fields (R122). -/
theorem parsedVdm_vdmWord (b : VdmBits) (ct : BitVec 2) (c : BitVec 5) :
    ParsedVdm (vdmWord b ct c) = .structured b.svid b.version b.objectPosition ct c := by
  have hw : (vdmWord b ct c).toNat = b.svid.toNat * 2 ^ 16 + 2 ^ 15 + b.version.toNat * 2 ^ 11 +
      b.objectPosition.toNat * 2 ^ 8 + ct.toNat * 2 ^ 6 + b.reserved.toNat * 2 ^ 5 + c.toNat := by
    change (b.svid ++ 1#1 ++ b.version ++ b.objectPosition ++ ct ++ b.reserved ++ c).toNat = _
    simp only [toNat_append_eq, BitVec.toNat_ofNat]
    omega
  have hparse := parsedVdm_of_toNat b.version.isLt b.objectPosition.isLt ct.isLt b.reserved.isLt c.isLt hw
  simpa only [BitVec.ofNat_toNat, BitVec.setWidth_eq] using hparse

/-- An unstructured VDM header parses to its SVID and payload (R123). -/
theorem parsedVdm_unstructuredWord (svid : BitVec 16) (payload : BitVec 15) :
    ParsedVdm (unstructuredWord svid payload) = .unstructured svid payload := by
  have hw : (unstructuredWord svid payload).toNat = svid.toNat * 2 ^ 16 + payload.toNat := by
    change (svid ++ 0#1 ++ payload).toNat = _
    simp only [toNat_append_eq, BitVec.toNat_ofNat]
    omega
  have h15 : ¬ fld (unstructuredWord svid payload) 15 15 = 1 := by rw [fld]; omega
  have h1 : fld (unstructuredWord svid payload) 31 16 = svid.toNat := by rw [fld]; omega
  have h2 : fld (unstructuredWord svid payload) 14 0 = payload.toNat := by rw [fld]; omega
  rw [ParsedVdm, if_neg (mt (fld_one_bit_iff _ 15).2 h15), ← ofNat_fld _ 31 16, ← ofNat_fld _ 14 0, h1, h2]
  simp

/-- What a word whose value is built up like an RDO parses to (R126). -/
theorem parsedRequest_of_toNat {w : Word32} {pos flags cur max : Nat} (hf : flags < 64) (hc : cur < 1024)
    (hm : max < 1024) (hw : w.toNat = pos * 2 ^ 28 + flags * 2 ^ 22 + cur * 2 ^ 10 + max) :
    ParsedRequest w = ⟨pos, cur * 10, max * 10, flags * 4⟩ := by
  have h1 : fld w 31 28 = pos := by rw [fld]; omega
  have h2 : fld w 19 10 = cur := by rw [fld]; omega
  have h3 : fld w 9 0 = max := by rw [fld]; omega
  have h4 : fld w 27 20 = flags * 4 := by rw [fld]; omega
  rw [← parseRequest_eq, parseRequest, h1, h2, h3, h4]

/-- An RDO parses to its fields (R126). -/
theorem parsedRequest_rdoWord (pos : BitVec 4) (flags : BitVec 6) (cur max : BitVec 10) :
    ParsedRequest (rdoWord pos flags cur max) = ⟨pos.toNat, cur.toNat * 10, max.toNat * 10, flags.toNat * 4⟩ := by
  refine parsedRequest_of_toNat flags.isLt cur.isLt max.isLt ?_
  change (pos ++ flags ++ 0#2 ++ cur ++ max).toNat = _
  simp only [toNat_append_eq, BitVec.toNat_ofNat]
  omega

/-- Settles O37: each row is its parsing operation on the row's word. -/
theorem dataObjectRowsDecode : Obligations.DataObjectRowsDecode := by
  refine ⟨fun s b n t => ?_, fun s w svid payload b ct c pos flags cur max => ⟨?_, ?_, ?_, ?_, ?_, ?_, ?_⟩⟩
  · obtain ⟨sop, _, _, _, _, _⟩ := b
    cases sop <;> rfl
  · rw [← parsePdo_eq]; rfl
  · rw [← parsePdo_eq]; rfl
  · rw [← parsePdo_eq]; rfl
  · rw [← parsePdo_eq]; rfl
  · rw [← parsedVdm_vdmWord, ← parseVdmHeader_eq]; rfl
  · rw [← parsedVdm_unstructuredWord, ← parseVdmHeader_eq]; rfl
  · rw [← parsedRequest_rdoWord, ← parseRequest_eq]; rfl

/-! ## The building operations (R209 to R211, R218, R220) -/

/-- A codec function's value is the result of a pure operation. -/
theorem runOp_codec_ok {α : Type} {value : α → Value} {op : Byte} {r : Except CodecError α} {a : α} (h : r = .ok a)
    (s : State) : runOp value (opCodec op r) s = .next (PureResult s (value a)) := by
  rw [h, opCodec_ok, runOp_pure]

/-- A codec function's error surfaces with the operation's code (R340, R350). -/
theorem runOp_codec_error {α : Type} {value : α → Value} {op : Byte} {r : Except CodecError α} {e : CodecError}
    (h : r = .error e) (s : State) : runOp value (opCodec op r) s = .next (surface (codecErr op e) s) := by
  rw [h]; rfl

/-- A slice of a number's bits, from its quotient. -/
theorem extractLsb'_ofNat_of_div {w lo len v k : Nat} (hw : lo + len ≤ w) (h : v / 2 ^ lo % 2 ^ len = k % 2 ^ len) :
    (BitVec.ofNat w v).extractLsb' lo len = BitVec.ofNat len k := by
  have hpow : 2 ^ w = 2 ^ lo * 2 ^ (w - lo) := by rw [← Nat.pow_add]; congr 1; omega
  have hdvd : 2 ^ len ∣ 2 ^ (w - lo) := Nat.pow_dvd_pow 2 (by omega)
  apply BitVec.eq_of_toNat_eq
  rw [BitVec.extractLsb'_toNat, BitVec.toNat_ofNat, BitVec.toNat_ofNat, Nat.shiftRight_eq_div_pow, hpow,
    Nat.mod_mul_right_div_self, Nat.mod_mod_of_dvd _ hdvd, h]

/-- The two header bytes of fields in range read back as those fields (R110, R203, R209). -/
theorem decodeHeader_headerFieldBytes {ext n id rev pr dr t : Nat} (hn : n ≤ 7) (hid : id ≤ 7) (hpr : pr ≤ 1)
    (hdr : dr ≤ 1) (ht : t ≤ 31) :
    decodeHeader .primary (BitVec.ofNat 8 (ext * 128 + n * 16 + id * 2 + pr)) (BitVec.ofNat 8 (rev * 64 + dr * 32 + t)) =
      ⟨BitVec.ofNat 1 ext, BitVec.ofNat 3 n, BitVec.ofNat 3 id, BitVec.ofNat 1 pr, some (BitVec.ofNat 1 pr),
        BitVec.ofNat 2 rev, BitVec.ofNat 1 dr, BitVec.ofNat 5 t⟩ := by
  have hpr' : (BitVec.ofNat 8 (ext * 128 + n * 16 + id * 2 + pr)).extractLsb' 0 1 = BitVec.ofNat 1 pr :=
    extractLsb'_ofNat_of_div (by decide) (by omega)
  simp only [decodeHeader, headerOf, headerBits, headerCount, headerType, hpr', Header.mk.injEq, true_and]
  refine ⟨?_, ?_, ?_, ?_, ?_, ?_⟩ <;> exact extractLsb'_ofNat_of_div (by decide) (by omega)

/-- The bytes of a data object give it back (R70). -/
theorem exists_wordBytes (w : Word32) :
    ∃ b0 b1 b2 b3 : Byte, wordBytes w = [b0, b1, b2, b3] ∧ wordOf b0 b1 b2 b3 = w := by
  refine ⟨_, _, _, _, rfl, BitVec.eq_of_toNat_eq ?_⟩
  have hw := w.isLt
  simp only [wordOf, toNat_append_eq, BitVec.extractLsb'_toNat, Nat.shiftRight_eq_div_pow]
  omega

/-- `BUILD_REQUEST`'s word for an encodable choice (R220, R221). -/
theorem parsedRequest_requestWord {index current : Nat} (hi : index ≤ 6) (hc : current % 10 = 0)
    (hm : current ≤ 10230) :
    ParsedRequest (requestWord index current) = ⟨index + 1, current, current, 0⟩ := by
  have hw : (requestWord index current).toNat =
      (index + 1) * 2 ^ 28 + 0 * 2 ^ 22 + current / 10 * 2 ^ 10 + current / 10 := by
    rw [requestWord, BitVec.toNat_ofNat]; omega
  rw [parsedRequest_of_toNat (by decide) (by omega) (by omega) hw, Nat.div_mul_cancel (Nat.dvd_of_mod_eq_zero hc)]

/-- `ENCODE_HEADER` of fields in range (R209). -/
theorem encodeHeader_ok {ext n id rev pr dr t : Nat}
    (h : ext ≤ 1 ∧ n ≤ 7 ∧ id ≤ 7 ∧ rev ≤ 3 ∧ pr ≤ 1 ∧ dr ≤ 1 ∧ t ≤ 31) :
    encodeHeader ext n id rev pr dr t = .ok (headerFieldBytes ext n id rev pr dr t) := if_neg (by omega)

/-- `ENCODE_HEADER` of a field out of its range (R209). -/
theorem encodeHeader_error {ext n id rev pr dr t : Nat}
    (h : ¬ (ext ≤ 1 ∧ n ≤ 7 ∧ id ≤ 7 ∧ rev ≤ 3 ∧ pr ≤ 1 ∧ dr ≤ 1 ∧ t ≤ 31)) :
    encodeHeader ext n id rev pr dr t = .error (.caller .badHeaderField) := if_pos (by omega)

/-- `BUILD_REQUEST` of a choice an RDO can carry (R220). -/
theorem buildRequest_ok {index current : Nat} (h : index ≤ 6 ∧ current % 10 = 0 ∧ current ≤ 10230) :
    buildRequest index current = .ok (requestWord index current) := if_pos (decide_eq_true h)

/-- `BUILD_REQUEST` of a choice an RDO cannot carry (R220). -/
theorem buildRequest_error {index current : Nat} (h : ¬ (index ≤ 6 ∧ current % 10 = 0 ∧ current ≤ 10230)) :
    buildRequest index current = .error (.caller .badRequest) := if_neg (by simpa [encodableRequest] using h)

/-- Settles O27: each builder's two cases, its value read back. -/
theorem buildHeadersAndRequests : Obligations.BuildHeadersAndRequests := by
  refine ⟨fun s ext n id rev pr dr t => ⟨fun h => ?_, fun h => ?_⟩, fun s index current => ⟨fun h => ?_, fun h => ?_⟩⟩
  · refine ⟨_, _, runOp_codec_ok (encodeHeader_ok h) s, ?_⟩
    obtain ⟨-, hn, hid, -, hpr, hdr, ht⟩ := h
    rw [decodeHeader_headerFieldBytes hn hid hpr hdr ht]
    simp only [BitVec.ofNat_toNat]
  · exact runOp_codec_error (encodeHeader_error h) s
  · obtain ⟨hi, hc, hm⟩ := h
    obtain ⟨b0, b1, b2, b3, hb, hword⟩ := exists_wordBytes (requestWord index.toNat current.toNat)
    refine ⟨b0, b1, b2, b3, ?_, ?_⟩
    · rw [← hb]
      exact runOp_codec_ok (buildRequest_ok ⟨hi, hc, hm⟩) s
    · rw [hword, parseRequest_eq, parsedRequest_requestWord hi hc hm]
  · exact runOp_codec_error (buildRequest_error h) s

/-! ### The command table (R210) -/

/-- The number of entries of a class's table (R114, R115). -/
theorem typeTable_length (n : Nat) : (typeTable (classOf n)).length = if n = 0 then 24 else 16 := by
  by_cases h : n = 0 <;> simp only [classOf, h, if_true, if_false] <;> rfl

/-- A name other than `Reserved` stands in its table once: at the index it is looked up with. -/
theorem commandIndex_typeLookup (cls : MsgClass) (t : BitVec 5) (ht : t.toNat < (typeTable cls).length)
    (hr : typeLookup cls t ≠ .reserved) : commandIndex cls (typeLookup cls t) = some t.toNat := by
  cases cls <;> revert t <;> decide

/-- A name no index of the table looks up has no index. -/
theorem commandIndex_eq_none {cls : MsgClass} {name : MsgName}
    (h : name = .reserved ∨ ∀ t : BitVec 5, t.toNat < (typeTable cls).length → typeLookup cls t ≠ name) :
    commandIndex cls name = none := by
  rw [commandIndex]
  split
  · rfl
  · next hr =>
    have habsent := h.resolve_left hr
    refine List.findIdx?_eq_none_iff.2 fun x hx => ?_
    obtain ⟨k, hk, rfl⟩ := List.getElem_of_mem hx
    have hlen : (typeTable cls).length ≤ 24 := by cases cls <;> decide
    have hk5 : (BitVec.ofNat 5 k).toNat = k := by rw [BitVec.toNat_ofNat]; omega
    have hne := habsent (BitVec.ofNat 5 k) (by rwa [hk5])
    rw [typeLookup, hk5, List.getElem?_eq_getElem hk, Option.getD_some] at hne
    simpa using hne

/-- The class of `k` data objects' bytes. -/
theorem classOf_four_mul (k : Nat) : classOf (4 * k) = if k = 0 then .control else .data := by
  have h : 4 * k = 0 ↔ k = 0 := by omega
  simp only [classOf, h]

/-- `ENCODE_COMMAND` where every check passes (R210). -/
theorem encodeCommand_ok {name : MsgName} {d : List Byte} {k t id rev pr dr : Nat} (hd : d.length = 4 * k) (hk : k ≤ 7)
    (ht : commandIndex (classOf d.length) name = some t) (h : id ≤ 7 ∧ rev ≤ 3 ∧ pr ≤ 1 ∧ dr ≤ 1) :
    encodeCommand name d id rev pr dr = .ok (headerFieldBytes 0 k id rev pr dr t ++ d) := by
  have hfields : ¬ (id > 7 ∨ rev > 3 ∨ pr > 1 ∨ dr > 1) := by omega
  have hlen : ¬ (d.length % 4 ≠ 0 ∨ d.length > 28) := by omega
  have hdiv : d.length / 4 = k := by omega
  simp only [encodeCommand, if_neg hlen, ht, if_neg hfields, hdiv]

/-- `ENCODE_COMMAND` where a check fails raises CallerError (R211). -/
theorem encodeCommand_error {name : MsgName} {d : List Byte} {id rev pr dr : Nat}
    (h : d.length % 4 ≠ 0 ∨ 28 < d.length ∨ commandIndex (classOf d.length) name = none ∨
      7 < id ∨ 3 < rev ∨ 1 < pr ∨ 1 < dr) :
    ∃ reason, encodeCommand name d id rev pr dr = .error (.caller reason) := by
  rw [encodeCommand]
  split
  · exact ⟨_, rfl⟩
  · next hlen =>
    cases ht : commandIndex (classOf d.length) name with
    | none => exact ⟨_, rfl⟩
    | some t =>
      have hfields : id > 7 ∨ rev > 3 ∨ pr > 1 ∨ dr > 1 := by
        simp only [ht, reduceCtorEq, false_or] at h; omega
      exact ⟨_, if_pos hfields⟩

/-- Settles O28: the index of the name, the header's fields read back, and the three refusals. -/
theorem encodeCommandLooksTheNameUp : Obligations.EncodeCommandLooksTheNameUp := by
  refine ⟨fun s name d t id rev pr dr k hd hk hname hid hrev hpr hdr ht hlookup => ?_,
    fun s name d id rev pr dr h => ?_⟩
  · have hclass : classOf d.length = if k = 0 then .control else .data := by rw [hd, classOf_four_mul]
    have hindex : commandIndex (classOf d.length) name = some t.toNat := by
      subst hlookup
      rw [hclass]
      refine commandIndex_typeLookup _ t ?_ hname
      rwa [← classOf, typeTable_length]
    refine ⟨_, _, runOp_codec_ok (encodeCommand_ok hd hk hindex ⟨hid, hrev, hpr, hdr⟩) s, ?_⟩
    rw [decodeHeader_headerFieldBytes (by omega) hid hpr hdr (by have := t.isLt; omega)]
    simp
  · have hcheck : d.length % 4 ≠ 0 ∨ 28 < d.length ∨ commandIndex (classOf d.length) name = none ∨
        7 < id.toNat ∨ 3 < rev.toNat ∨ 1 < pr.toNat ∨ 1 < dr.toNat := by
      obtain h | h | h | h | h := h
      · exact .inl h
      · exact .inr (.inl h)
      · exact .inr (.inr (.inl (commandIndex_eq_none (.inl h))))
      · exact .inr (.inr (.inl (commandIndex_eq_none (.inr (by rwa [typeTable_length])))))
      · exact .inr (.inr (.inr h))
    obtain ⟨reason, he⟩ := encodeCommand_error hcheck
    exact ⟨reason, runOp_codec_error he s⟩

/-! ### VDM headers (R218) -/

/-- `BUILD_VDM_HEADER`'s word for fields in range: it parses back to them, and its reserved bit is 0 (R217, R218). -/
theorem vdmHeaderWord_parses {svid v p ct c : Nat} (hs : svid ≤ 0xFFFF) (hv : v ≤ 15) (hp : p ≤ 7) (hct : ct ≤ 3)
    (hc : c ≤ 31) :
    ParsedVdm (vdmHeaderWord svid v p ct c) = .structured (BitVec.ofNat 16 svid) (BitVec.ofNat 4 v) (BitVec.ofNat 3 p)
      (BitVec.ofNat 2 ct) (BitVec.ofNat 5 c) ∧ (vdmHeaderWord svid v p ct c).getLsbD 5 = false := by
  have hw : (vdmHeaderWord svid v p ct c).toNat =
      svid * 2 ^ 16 + 2 ^ 15 + v * 2 ^ 11 + p * 2 ^ 8 + ct * 2 ^ 6 + 0 * 2 ^ 5 + c := by
    rw [vdmHeaderWord, BitVec.toNat_ofNat]; omega
  refine ⟨parsedVdm_of_toNat (by omega) (by omega) (by omega) (by decide) (by omega) hw, ?_⟩
  have h5 : fld (vdmHeaderWord svid v p ct c) 5 5 ≠ 1 := by rw [fld]; omega
  simpa using mt (fld_one_bit_iff _ 5).2 h5

/-- `BUILD_VDM_HEADER` of a structured record in range (R218). -/
theorem buildVdmHeader_ok {svid : Word32} {v p ct c : Byte} {extra : List Byte}
    (h : svid.toNat ≤ 0xFFFF ∧ v.toNat ≤ 15 ∧ p.toNat ≤ 7 ∧ ct.toNat ≤ 3 ∧ c.toNat ≤ 31 ∧ extra.length % 4 = 0 ∧
      extra.length ≤ 24) :
    buildVdmHeader (.structured svid v p ct c) extra =
      .ok (wordBytes (vdmHeaderWord svid.toNat v.toNat p.toNat ct.toNat c.toNat) ++ extra) := if_neg (by omega)

/-- `BUILD_VDM_HEADER` of a structured record out of range (R218). -/
theorem buildVdmHeader_error {svid : Word32} {v p ct c : Byte} {extra : List Byte}
    (h : ¬ (svid.toNat ≤ 0xFFFF ∧ v.toNat ≤ 15 ∧ p.toNat ≤ 7 ∧ ct.toNat ≤ 3 ∧ c.toNat ≤ 31 ∧ extra.length % 4 = 0 ∧
      extra.length ≤ 24)) :
    buildVdmHeader (.structured svid v p ct c) extra = .error (.caller .badVdmField) := if_pos (by omega)

/-- Bit 5 of a data object is bit 5 of its first byte (R70). -/
theorem wordOf_getLsbD_five (b0 b1 b2 b3 : Byte) : (wordOf b0 b1 b2 b3).getLsbD 5 = b0.getLsbD 5 :=
  BitVec.getLsbD_append.trans (if_pos (by decide))

/-- Settles O32: the word read back, and the two refusals. -/
theorem buildVdmHeaderRoundTrips : Obligations.BuildVdmHeaderRoundTrips := by
  refine fun s svid v p ct c extra => ⟨fun h => ?_, fun h => ?_, fun sv raw => rfl⟩
  · obtain ⟨b0, b1, b2, b3, hb, hword⟩ :=
      exists_wordBytes (vdmHeaderWord svid.toNat v.toNat p.toNat ct.toNat c.toNat)
    have hbuild := buildVdmHeader_ok h
    obtain ⟨hs, hv, hp, hct, hc, -, -⟩ := h
    obtain ⟨hparse, hbit⟩ := vdmHeaderWord_parses hs hv hp hct hc
    rw [hb] at hbuild
    refine ⟨b0, b1, b2, b3, runOp_codec_ok hbuild s, ?_, ?_⟩
    · rw [hword, parseVdmHeader_eq, hparse]
      simp only [BitVec.ofNat_toNat]
    · rw [← wordOf_getLsbD_five b0 b1 b2 b3, hword, hbit]
  · exact runOp_codec_error (buildVdmHeader_error h) s

end Sys2Proof.Machine
end

section
/-! Proofs of the statements of `30_encoding.md`, second part: sending a command with an empty schedule, and the VDM
responder (O49, O50). -/

namespace Sys2Proof.Machine

/-! ## Sending a command (R176, R252) -/

/-- The state after bytes were written to the TX FIFO (R65). -/
def fifoWritten (v : List Byte) (s : State) : State :=
  logPrim (.wr 0x43 v) { s with phy := { s.phy with tx := s.phy.tx ++ v } }

/-- Bytes written take their part of the room. -/
theorem TxRoom.after_write {v : List Byte} {n : Nat} {s : State} (h : TxRoom (v.length + n) s) :
    TxRoom n (fifoWritten v s) := by
  simp only [TxRoom, fifoWritten, logPrim_phy, logPrim_cfg, List.length_append] at h ⊢
  omega

/-- Room for more is room for less. -/
theorem TxRoom.of_le {m n : Nat} {s : State} (h : TxRoom n s) (hmn : m ≤ n) : TxRoom m s :=
  Nat.le_trans (Nat.add_le_add_left hmn _) h

/-- `SEND_PACKET` of a legal payload, nothing else happening: three writes append its frame. -/
theorem opSendPacket_quiet {p : List Byte} {s : State} (henv : s.env = []) (hl : legalLength p.length = true)
    (hr : TxRoom (p.length + 9) s) :
    evalOp (opSendPacket p) s = .ok () { s with
      phy := { s.phy with tx := s.phy.tx ++ (sopTokens p.length ++ p ++ eopTokens) }
      trace := s.trace ++ [.wr 0x43 (sopTokens p.length), .wr 0x43 p, .wr 0x43 eopTokens] } := by
  have write : ∀ {v : List Byte} {t : State}, t.env = [] → TxRoom v.length t →
      evalOp (memWrite 0x16 0x43 v) t = .ok () (fifoWritten v t) := memWrite_fifo_quiet
  have room : TxRoom ((sopTokens p.length).length + (p.length + eopTokens.length)) s :=
    hr.of_le (by rw [sopTokens_length]; exact Nat.le_of_eq (Nat.add_comm 5 _))
  have sop := write henv (room.of_le (Nat.le_add_right _ _))
  have payload := write (v := p) (t := fifoWritten (sopTokens p.length) s) henv
    (room.after_write.of_le (Nat.le_add_right _ _))
  have eop := write (t := fifoWritten p (fifoWritten (sopTokens p.length) s)) henv room.after_write.after_write
  simp only [opSendPacket, hl, opRequire_true, evalOp_seq, sop, payload, eop]
  simp [fifoWritten, logPrim]

/-- The state after a command was sent as payload `p` (R252): the next message ID, its frame in the TX FIFO, its log
record. -/
def commandSent (p d : List Byte) (s : State) : State :=
  { s with
    ses := { s.ses with
      msgId := some (nextId s.ses.msgId)
      sentLog := s.ses.sentLog ++ [sentRecord p d (nextId s.ses.msgId)] }
    phy := { s.phy with tx := s.phy.tx ++ (sopTokens p.length ++ p ++ eopTokens) }
    trace := s.trace ++ [.wr 0x43 (sopTokens p.length), .wr 0x43 p, .wr 0x43 eopTokens] }

/-- `NEXT_MSG_ID` (R251). -/
@[simp] theorem evalOp_nextMsgId (s : State) :
    evalOp opNextMsgId s =
      .ok (nextId s.ses.msgId) { s with ses := { s.ses with msgId := some (nextId s.ses.msgId) } } := by
  simp [opNextMsgId, updSes]

/-- `SEND_COMMAND` whose payload is `p`, nothing else happening. -/
theorem opSendCommand_quiet {name : MsgName} {d p : List Byte} {s : State} (henv : s.env = [])
    (hp : encodeCommand name d (nextId s.ses.msgId).toNat s.cfg.rev (roleBits s.cfg s.cfg.role).1
      (roleBits s.cfg s.cfg.role).2 = .ok p)
    (hl : legalLength p.length = true) (hr : TxRoom (p.length + 9) s) :
    evalOp (opSendCommand name d) s = .ok () (commandSent p d s) := by
  simp only [opSendCommand, evalOp_bind, evalOp_nextMsgId, evalOp_cfg, hp, opCodec_ok, evalOp_pure, evalOp_seq]
  have send := opSendPacket_quiet (s := { s with ses := { s.ses with msgId := some (nextId s.ses.msgId) } }) henv hl hr
  rw [send]
  rfl

/-- What the configuration check says of the fields a header carries and of the responder's payloads (R381). -/
theorem checkConfig_fields {c : Cfg} (h : checkConfig c = true) :
    c.rev ≤ 3 ∧ (∀ role, (roleBits c role).1 ≤ 1 ∧ (roleBits c role).2 ≤ 1) ∧
      ∀ v ∈ [c.vdmIdentity, c.vdmSvids, c.vdmModes, c.vdmEnter, c.vdmDpStatus, c.vdmDpConfig],
        v.length % 4 = 0 ∧ v.length ≤ 24 := by
  simp only [checkConfig, Bool.and_eq_true, decide_eq_true_eq, List.all_eq_true] at h
  obtain ⟨⟨⟨hrev, -, -, hk1, hk2, hs1, hs2, -⟩, hvdm⟩, -⟩ := h
  refine ⟨hrev, fun role => ?_, hvdm⟩
  cases role with
  | sink => exact ⟨hk1, hk2⟩
  | source => exact ⟨hs1, hs2⟩

/-- The role bits of the statements are the model's. -/
theorem roleBits_eq (s : State) : roleBits s.cfg s.cfg.role = RoleBits s := by
  cases h : s.cfg.role <;> simp [RoleBits, roleBits, h]

/-- A sent command's state is what `Sends` says (R101, R110, R252). -/
theorem sends_commandSent {s : State} {d : List Byte} {type : BitVec 5} {k : Nat} (hd : d.length = 4 * k) (hk : k ≤ 7) :
    Sends s (commandSent (headerFieldBytes 0 k (nextId s.ses.msgId).toNat s.cfg.rev (RoleBits s).1 (RoleBits s).2
      type.toNat ++ d) d s) type d := by
  have htype : (BitVec.ofNat 8 (s.cfg.rev * 64 + (RoleBits s).2 * 32 + type.toNat)).extractLsb' 0 5 = type := by
    rw [extractLsb'_ofNat_of_div (k := type.toNat) (by decide) (by omega), BitVec.ofNat_toNat, BitVec.setWidth_eq]
  have hdiv : d.length / 4 = k := by omega
  refine ⟨rfl, ?_, ?_, rfl, fun _ _ => rfl, ⟨rfl, rfl, rfl, rfl, rfl, rfl, rfl, rfl, rfl⟩, rfl, rfl, rfl, rfl, rfl, rfl⟩
  · have hlen : ∀ b0 b1 : Byte, ([b0, b1] ++ d).length = 2 + d.length := fun _ _ => Nat.add_comm _ 2
    simp only [commandSent, CommandFrame, headerFieldBytes, hlen, sopTokens_eq (show 2 + d.length ≤ 30 by omega), hdiv,
      eopTokens, Nat.zero_mul, Nat.zero_add, ← Nat.add_assoc]
    simp
  · simp only [commandSent, sentRecord, headerFieldBytes, List.cons_append, List.nil_append, List.getD_cons_succ,
      List.getD_cons_zero, htype]
    rfl

/-- The result of an instruction is no part of what `Sends` says. -/
theorem sends_setResult {s t : State} {type : BitVec 5} {d : List Byte} (h : Sends s t type d) (v : Value) :
    Sends s (setResult v t) type d :=
  { id := h.id, tx := h.tx, log := h.log, rx := h.rx, regs := h.regs
    latches := ⟨h.latches.intA, h.latches.intB, h.latches.intI, h.latches.cc1, h.latches.cc2, h.latches.status0,
      h.latches.status1, h.latches.status1a, h.latches.wire⟩
    ctl := h.ctl, lastError := h.lastError, cfg := h.cfg, pin := h.pin, counters := h.counters }

/-- `SEND_COMMAND` of a name at index `type` of its table, nothing else happening (R252). -/
theorem opSendCommand_sends {s : State} {name : MsgName} {d : List Byte} {type : BitVec 5} {k : Nat} (henv : s.env = [])
    (hcfg : checkConfig s.cfg = true) (hd : d.length = 4 * k) (hk : k ≤ 7) (hroom : TxRoom (d.length + 11) s)
    (hindex : commandIndex (classOf d.length) name = some type.toNat) :
    ∃ p, evalOp (opSendCommand name d) s = .ok () (commandSent p d s) ∧ Sends s (commandSent p d s) type d := by
  obtain ⟨hrev, hbits, -⟩ := checkConfig_fields hcfg
  obtain ⟨hpr, hdr⟩ := hbits s.cfg.role
  have hid : (nextId s.ses.msgId).toNat ≤ 7 := Nat.le_of_lt_succ (nextId s.ses.msgId).isLt
  have hp := encodeCommand_ok hd hk hindex ⟨hid, hrev, hpr, hdr⟩
  have hsends := sends_commandSent (s := s) (type := type) hd hk
  rw [← roleBits_eq] at hsends
  refine ⟨_, opSendCommand_quiet henv hp ?_ ?_, hsends⟩
  · simp [headerFieldBytes, legalLength]; omega
  · simpa [headerFieldBytes] using hroom

/-! ## The VDM responder (R293 to R299) -/

/-- The responder's table is the statements' (R9, R293). -/
theorem vdmResponse_eq (s : State) (command : BitVec 5) : vdmResponse s.cfg command = AnswerTo s command := by
  have all : ∀ c : BitVec 5, c.toNat ≠ 1 ∧ c.toNat ≠ 2 ∧ c.toNat ≠ 3 ∧ c.toNat ≠ 4 ∧ c.toNat ≠ 16 ∧ c.toNat ≠ 17 ∨
      c = 1 ∨ c = 2 ∨ c = 3 ∨ c = 4 ∨ c = 16 ∨ c = 17 := by decide
  obtain ⟨h1, h2, h3, h4, h16, h17⟩ | rfl | rfl | rfl | rfl | rfl | rfl := all command
  · have hne : ∀ k : BitVec 5, command.toNat ≠ k.toNat → command ≠ k := fun k h hk => h (congrArg _ hk)
    simp only [AnswerTo, if_neg (hne 1 h1), if_neg (hne 2 h2), if_neg (hne 3 h3), if_neg (hne 4 h4), if_neg (hne 16 h16),
      if_neg (hne 17 h17)]
    unfold vdmResponse
    split
    case h_7 => rfl
    all_goals contradiction
  all_goals rfl

/-- A configured payload fits behind a VDM header (R381). -/
theorem answerTo_fits {s : State} {command : BitVec 5} {payload : List Byte} (hcfg : checkConfig s.cfg = true)
    (h : AnswerTo s command = some payload) : payload.length % 4 = 0 ∧ payload.length ≤ 24 := by
  obtain ⟨-, -, hvdm⟩ := checkConfig_fields hcfg
  refine hvdm payload ?_
  simp only [AnswerTo] at h
  repeat' split at h
  all_goals cases h
  all_goals simp

/-- The word of the acknowledgement of a request (R293). -/
def ackWord (v : VdmBits) (command : BitVec 5) : Word32 :=
  vdmHeaderWord v.svid.toNat v.version.toNat v.objectPosition.toNat 1 command.toNat

/-- The acknowledgement echoes SVID, version, position and command, with type ACK and bit 5 clear (R293). -/
theorem ackWord_parses (v : VdmBits) (command : BitVec 5) :
    ParsedVdm (ackWord v command) = .structured v.svid v.version v.objectPosition 1 command ∧
      (ackWord v command).getLsbD 5 = false := by
  have h := vdmHeaderWord_parses (Nat.le_of_lt_succ v.svid.isLt) (Nat.le_of_lt_succ v.version.isLt)
    (Nat.le_of_lt_succ v.objectPosition.isLt) (show 1 ≤ 3 by decide) (Nat.le_of_lt_succ command.isLt)
  simp only [BitVec.ofNat_toNat, BitVec.setWidth_eq] at h
  exact h

/-- The acknowledgement with a payload that fits is built (R218, R293). -/
theorem buildVdmHeader_ack (v : VdmBits) (command : BitVec 5) {payload : List Byte}
    (h : payload.length % 4 = 0 ∧ payload.length ≤ 24) :
    buildVdmHeader (ackFields v.svid v.version v.objectPosition command) payload =
      .ok (wordBytes (ackWord v command) ++ payload) := by
  have widen : ∀ {m n : Nat} (x : BitVec m), m ≤ n → (x.setWidth n).toNat = x.toNat := fun x hmn =>
    BitVec.toNat_setWidth_of_le hmn
  have hs := v.svid.isLt
  have hv := v.version.isLt
  have hp := v.objectPosition.isLt
  have hc := command.isLt
  rw [ackFields, buildVdmHeader_ok, ackWord, widen _ (by decide), widen _ (by decide), widen _ (by decide),
    widen _ (by decide)]
  · rfl
  · rw [widen _ (by decide), widen _ (by decide), widen _ (by decide), widen _ (by decide)]
    exact ⟨by omega, by omega, by omega, by decide, by omega, h⟩

/-- The responder answers a REQ of a command that has a payload with Vendor_Defined (R293). -/
theorem opVdmRespond_request {s : State} {command : BitVec 5} {payload : List Byte} (v : VdmBits)
    (hcfg : checkConfig s.cfg = true) (h : AnswerTo s command = some payload) :
    evalOp (opVdmRespond (.structured v.svid v.version v.objectPosition 0 command)) s =
      evalOp (opSendCommand .vendorDefined (wordBytes (ackWord v command) ++ payload)) s := by
  simp only [opVdmRespond, ne_eq, not_true, if_false, evalOp_bind, evalOp_cfg, vdmResponse_eq, h,
    buildVdmHeader_ack v command (answerTo_fits hcfg h), opCodec_ok, evalOp_pure]

/-- The responder leaves every other structured VDM unanswered (R293). -/
theorem opVdmRespond_other {s : State} {ct : BitVec 2} {command : BitVec 5} (v : VdmBits)
    (h : ct ≠ 0 ∨ AnswerTo s command = none) :
    evalOp (opVdmRespond (.structured v.svid v.version v.objectPosition ct command)) s = .ok () s := by
  by_cases hct : ct = 0
  · simp only [opVdmRespond, hct, ne_eq, not_true, if_false, evalOp_bind, evalOp_cfg, vdmResponse_eq,
      h.resolve_left (not_not_intro hct), evalOp_pure]
  · simp only [opVdmRespond, if_pos hct, evalOp_pure]

/-- Vendor_Defined is Data type 15 and no other (R114, R115). -/
theorem typeLookup_eq_vendorDefined_iff (cls : MsgClass) (t : BitVec 5) :
    typeLookup cls t = .vendorDefined ↔ cls = .data ∧ t = 15#5 := by
  cases cls <;> revert t <;> decide

/-- The class of a header's object count (R111). -/
theorem classOf_toNat (n : BitVec 3) : classOf n.toNat = if n = 0#3 then .control else .data := by
  simp only [classOf, BitVec.toNat_eq, BitVec.toNat_ofNat, Nat.zero_mod]

/-- The VDM part of a message (R207). -/
theorem buildMessage_vdm (sop : Sop) (hdr : Header) (objs : List Word32) :
    (buildMessage sop hdr objs).vdm =
      if hdr.numDataObjects ≠ 0#3 ∧ hdr.messageType = 15#5 then objs.head?.map ParsedVdm else none := by
  have hiff : typeLookup (classOf hdr.numDataObjects.toNat) hdr.messageType = .vendorDefined ↔
      hdr.numDataObjects ≠ 0#3 ∧ hdr.messageType = 15#5 := by
    rw [typeLookup_eq_vendorDefined_iff, classOf_toNat]
    by_cases h : hdr.numDataObjects = 0#3 <;> simp [h]
  simp only [buildMessage, hiff, ← funext parseVdmHeader_eq]

/-- The Vendor_Defined message of an operand carries its first object as VDM header (R207). -/
theorem dataMessage_vdm {m : DataOperand} (h : m.others.length ≤ 6) :
    (dataMessage 15#5 m).vdm = some (ParsedVdm m.first) := by
  have hn : BitVec.ofNat 3 (m.others.length + 1) ≠ 0#3 := by
    rw [ne_eq, BitVec.toNat_eq, BitVec.toNat_ofNat, BitVec.toNat_ofNat]; omega
  exact (buildMessage_vdm _ _ _).trans (if_pos ⟨hn, rfl⟩)

/-- With any number of objects, a type 15 message carries its first object as VDM header or none. -/
theorem dataMessage_vdm_or (m : DataOperand) :
    (dataMessage 15#5 m).vdm = none ∨ (dataMessage 15#5 m).vdm = some (ParsedVdm m.first) := by
  rw [dataMessage, messageOf, buildMessage_vdm]
  split
  · exact .inr rfl
  · exact .inl rfl

/-! ## The instructions that hand the responder a VDM header -/

/-- An operation that hands the responder a header runs the responder on it. -/
theorem exec_vdmOperation {v : VdmBits} {ct : BitVec 2} {command : BitVec 5} {i : Instr} (h : HandsVdm v ct command i)
    (hop : (encode i).1 = .op) (s : State) :
    exec i s = runUnit (opVdmRespond (.structured v.svid v.version v.objectPosition ct command)) s := by
  cases i with
  | sinkOnVdm m =>
    obtain ⟨hfirst, hlen⟩ := h
    change runUnit (opSinkOnVdm (dataMessage 15#5 m)) s = _
    rw [opSinkOnVdm, dataMessage_vdm hlen, hfirst, parsedVdm_vdmWord]
  | vdmDiscoverIdentity r | vdmDiscoverSvids r | vdmDiscoverModes r | vdmEnterMode r | vdmDpStatus r | vdmDpConfigure r =>
    obtain ⟨rfl, rfl, rfl⟩ := h; rfl
  | vdmCtReq | vdmCtAck | vdmCtNak | vdmCtBusy | vdmCmdDiscoverIdentity | vdmCmdDiscoverSvids | vdmCmdDiscoverModes
  | vdmCmdEnterMode | vdmCmdExitMode | vdmCmdAttention | vdmCmdDpStatusUpdate | vdmCmdDpConfigure => cases hop
  | _ => exact h.elim

/-- A row that hands the responder a header is the VDM row of its word. -/
theorem exec_vdmRow {v : VdmBits} {ct : BitVec 2} {command : BitVec 5} {i : Instr} (h : HandsVdm v ct command i)
    (hrow : (encode i).1 ≠ .op) (s : State) : exec i s = runOp .vdm (opVdmRow (vdmWord v ct command)) s := by
  cases i with
  | vdmCtReq | vdmCtAck | vdmCtNak | vdmCtBusy | vdmCmdDiscoverIdentity | vdmCmdDiscoverSvids | vdmCmdDiscoverModes
  | vdmCmdEnterMode | vdmCmdExitMode | vdmCmdAttention | vdmCmdDpStatusUpdate | vdmCmdDpConfigure =>
    obtain ⟨rfl, rfl, rfl⟩ := h; rfl
  | sinkOnVdm | vdmDiscoverIdentity | vdmDiscoverSvids | vdmDiscoverModes | vdmEnterMode | vdmDpStatus | vdmDpConfigure =>
    exact absurd rfl hrow
  | _ => exact h.elim

/-- On the sink, every instruction that hands the responder a header ends where the responder does, with a result. -/
theorem exec_handsVdm {s t : State} {v : VdmBits} {ct : BitVec 2} {command : BitVec 5} {i : Instr}
    (hrole : s.cfg.role = .sink) (h : HandsVdm v ct command i)
    (hr : evalOp (opVdmRespond (.structured v.svid v.version v.objectPosition ct command)) s = .ok () t) :
    ∃ value, exec i s = .next (setResult value t) := by
  by_cases hop : (encode i).1 = .op
  · exact ⟨.unit, by rw [exec_vdmOperation h hop, runUnit, runOp, hr, conclude_ok]⟩
  · refine ⟨.vdm (parseVdmHeader (vdmWord v ct command)), ?_⟩
    have hw := (parseVdmHeader_eq _).trans (parsedVdm_vdmWord v ct command)
    simp only [exec_vdmRow h hop, runOp, opVdmRow, evalOp_bind, evalOp_cfg, hrole, evalOp_seq, hw, hr, evalOp_pure,
      conclude_ok]

/-- On the source, a row that hands over a header only decodes it (R308). -/
theorem exec_vdmRow_source {s : State} {v : VdmBits} {ct : BitVec 2} {command : BitVec 5} {i : Instr}
    (hrole : s.cfg.role = .source) (h : HandsVdm v ct command i) (hrow : (encode i).1 ≠ .op) :
    exec i s = .next (PureResult s (.vdm (.structured v.svid v.version v.objectPosition ct command))) := by
  have hw := (parseVdmHeader_eq _).trans (parsedVdm_vdmWord v ct command)
  simp only [exec_vdmRow h hrow, runOp, opVdmRow, evalOp_bind, evalOp_cfg, hrole, evalOp_seq, hw, evalOp_pure,
    conclude_ok]
  rfl

/-- Settles O49: the responder answers with Vendor_Defined, which is sent and logged. -/
theorem vdmRequestsAreAcknowledged : Obligations.VdmRequestsAreAcknowledged := by
  intro s v command payload i henv hcfg hrole hroom hanswer hands
  obtain ⟨hmod, hmax⟩ := answerTo_fits hcfg hanswer
  have hlen : (wordBytes (ackWord v command) ++ payload).length = 4 * (payload.length / 4 + 1) := by
    rw [List.length_append, wordBytes, List.length_cons]
    simp only [List.length_cons, List.length_nil]
    omega
  have hindex : commandIndex (classOf (wordBytes (ackWord v command) ++ payload).length) .vendorDefined =
      some (15#5).toNat := by
    rw [hlen]; rfl
  obtain ⟨p, hsend, hsends⟩ := opSendCommand_sends henv hcfg hlen (by omega) (hroom.of_le (by omega)) hindex
  obtain ⟨value, hexec⟩ := exec_handsVdm hrole hands ((opVdmRespond_request v hcfg hanswer).trans hsend)
  obtain ⟨hparse, hbit⟩ := ackWord_parses v command
  exact ⟨_, ackWord v command, hexec, sends_setResult hsends value, hparse, hbit, rfl, rfl, rfl, rfl, rfl⟩

/-- Settles O50: the responder ends at once, and the source's rows never reach it. -/
theorem otherVdmsAreNotAnswered : Obligations.OtherVdmsAreNotAnswered := by
  refine ⟨fun s b v ct command ws i w hrole => ⟨fun hother hands => ?_, fun hbit => ?_⟩,
    fun s v ct command i => exec_vdmRow_source⟩
  · obtain ⟨value, hexec⟩ := exec_handsVdm hrole hands (opVdmRespond_other v hother)
    exact ⟨_, hexec, rfl⟩
  · have hparse : ParsedVdm w = .unstructured (w.extractLsb' 16 16) (w.extractLsb' 0 15) := by
      simp only [ParsedVdm, hbit, Bool.false_eq_true, if_false]
    change runUnit (opSinkOnVdm (dataMessage 15#5 ⟨b, w, ws⟩)) s = _
    obtain h | h := dataMessage_vdm_or ⟨b, w, ws⟩
    · rw [opSinkOnVdm, h]; rfl
    · rw [opSinkOnVdm, h, hparse]; rfl

end Sys2Proof.Machine
end

section
/-! Proofs of the statements of `30_encoding.md`, third part: receiving a frame with an empty schedule (O34). -/

namespace Sys2Proof.Machine

/-! ## Reading the RX FIFO (R64, R200) -/

/-- The state after the codec read the RX FIFO down to `rest`: the codec state `c`, the primitives `ps`, the events
`es`. -/
def received (c : Option Scan) (ps : List Prim) (es : List Event) (rest : List Byte) (s : State) : State :=
  { s with
    phy := { s.phy with rx := rest }
    scan := c
    diag := s.diag ++ es
    trace := s.trace ++ ps }

@[simp] theorem received_scan (c : Option Scan) (ps : List Prim) (es : List Event) (rest : List Byte) (s : State) :
    (received c ps es rest s).scan = c := rfl

/-- Two such stretches are one. -/
theorem received_received (c d : Option Scan) (ps qs : List Prim) (es fs : List Event) (r q : List Byte) (s : State) :
    received d qs fs q (received c ps es r s) = received d (ps ++ qs) (es ++ fs) q s := by
  simp only [received, List.append_assoc]

/-- The codec state before such a stretch does not matter. -/
theorem received_setScan (c d : Option Scan) (ps : List Prim) (es : List Event) (rest : List Byte) (s : State) :
    received c ps es rest (setScan d s) = received c ps es rest s := rfl

/-- Setting the codec state after one is part of it. -/
theorem setScan_received (c d : Option Scan) (ps : List Prim) (es : List Event) (rest : List Byte) (s : State) :
    setScan d (received c ps es rest s) = received d ps es rest s := rfl

/-- Noting something in the codec state, if there is one, sets it. -/
theorem evalOp_noteScan (f : Scan → Scan) (s : State) :
    evalOp (opModify fun u => { u with scan := u.scan.map f }) s = .ok () (setScan (s.scan.map f) s) := rfl

/-- The transaction that reads `bs`, if there is one (R174, R204). -/
def fifoReads (bs : List Byte) : List Prim := if bs = [] then [] else [.rd 0x43 bs]

/-- A read of the codec takes the bytes at the front of the FIFO. -/
theorem opCodecRead_quiet {s : State} {bs rest : List Byte} {n : Nat} (henv : s.env = []) (hn : bs.length = n)
    (hr : s.phy.rx = bs ++ rest) :
    ∃ c, evalOp (opCodecRead n) s = .ok bs (received c (fifoReads bs) [] rest s) := by
  subst hn
  refine ⟨s.scan.map fun c => { c with consumed := c.consumed + bs.length }, ?_⟩
  simp only [opCodecRead, opReadFifo, evalOp_bind, evalOp_seq]
  by_cases hbs : bs = []
  · subst hbs
    have hrx : s.phy.rx = rest := hr
    subst hrx
    simp [fifoReads, received, advanceScan]
  · have hne : bs.length ≠ 0 := fun h => hbs (List.length_eq_zero_iff.1 h)
    simp only [if_neg hne, memRead_fifo_quiet henv, rxRead_append s.cfg s.phy hr rfl, evalOp_modify, evalOp_pure]
    simp [fifoReads, hbs, received, advanceScan, logPrim, hr]

/-! ## Data objects in the FIFO (R204) -/

/-- The bytes of a data object are read as that object, then the rest. -/
theorem objectsOf_wordBytes_append (w : Word32) (bs : List Byte) :
    objectsOf (wordBytes w ++ bs) = w :: objectsOf bs := by
  obtain ⟨b0, b1, b2, b3, hb, hw⟩ := exists_wordBytes w
  rw [hb, ← hw]; rfl

/-- The bytes of data objects are read as those objects. -/
theorem objectsOf_flatMap (ws : List Word32) : objectsOf (ws.flatMap wordBytes) = ws := by
  induction ws with
  | nil => rfl
  | cons w ws ih => rw [List.flatMap_cons, objectsOf_wordBytes_append, ih]

/-- Four bytes for each data object. -/
theorem flatMap_wordBytes_length (ws : List Word32) : (ws.flatMap wordBytes).length = 4 * ws.length := by
  induction ws with
  | nil => rfl
  | cons w ws ih =>
    have hw : (wordBytes w).length = 4 := rfl
    rw [List.flatMap_cons, List.length_append, hw, ih, List.length_cons, Nat.mul_succ, Nat.add_comm]

/-! ## A frame (R203 to R207) -/

/-- The reads of a frame's data and CRC. -/
def bodyReads (objs : List Word32) (crc : List Byte) : List Prim := fifoReads (objs.flatMap wordBytes) ++ [.rd 0x43 crc]

/-- The rest of a frame after its header: its objects and its CRC are read, and no codec state is left. -/
theorem opParseBody_quiet {s : State} {sop : Sop} {hdr : Header} {objs : List Word32} {crc rest : List Byte}
    (henv : s.env = []) (hobjs : objs.length = hdr.numDataObjects.toNat) (hcrc : crc.length = 4)
    (hr : s.phy.rx = objs.flatMap wordBytes ++ crc ++ rest) :
    evalOp (opParseBody sop hdr) s =
      .ok (buildMessage sop hdr objs) (received none (bodyReads objs crc) [] rest s) := by
  obtain ⟨c, hdata⟩ := opCodecRead_quiet henv (by rw [flatMap_wordBytes_length, hobjs])
    (hr.trans (List.append_assoc _ _ _))
  obtain ⟨d, hread⟩ := opCodecRead_quiet (s := received (c.map fun k => { k with dataObjects := objs })
    (fifoReads (objs.flatMap wordBytes)) [] (crc ++ rest) s) henv hcrc rfl
  have hne : crc ≠ [] := fun h => by simp [h] at hcrc
  simp only [opParseBody, evalOp_bind, hdata, evalOp_seq, evalOp_noteScan, objectsOf_flatMap, setScan_received]
  simp only [received_scan, hread, evalOp_pure, evalOp_modify, setScan_received, received_received]
  simp only [bodyReads, fifoReads, if_neg hne, List.nil_append]

/-- The frame after its marker: header, objects and CRC are read, and no codec state is left. -/
theorem opParseFrame_quiet {s : State} {sop : Sop} {b0 b1 : Byte} {objs : List Word32} {crc rest : List Byte}
    (henv : s.env = []) (hobjs : objs.length = (headerCount b0).toNat) (hcrc : crc.length = 4)
    (hr : s.phy.rx = b0 :: b1 :: (objs.flatMap wordBytes ++ crc ++ rest)) :
    evalOp (opParseFrame sop) s = .ok (buildMessage sop (decodeHeader sop b0 b1) objs)
      (received none (.rd 0x43 [b0, b1] :: bodyReads objs crc) [] rest s) := by
  obtain ⟨c, hread⟩ := opCodecRead_quiet (n := 2) (bs := [b0, b1]) (rest := objs.flatMap wordBytes ++ crc ++ rest)
    (s := setScan (s.scan.map fun k => { k with sop := some sop }) s) henv rfl hr
  have hbody := opParseBody_quiet (sop := sop) (hdr := decodeHeader sop b0 b1)
    (s := received (c.map fun k => { k with hdr := some (decodeHeader sop b0 b1) }) (fifoReads [b0, b1]) []
      (objs.flatMap wordBytes ++ crc ++ rest) s) henv hobjs hcrc rfl
  simp only [opParseFrame, evalOp_seq, evalOp_noteScan, evalOp_bind, hread, List.getD_cons_zero, List.getD_cons_succ,
    received_setScan, setScan_received, received_scan, hbody, received_received]
  rfl

/-! ## The marker scan (R201) -/

/-- What reading one discarded byte does. -/
def discards (b : Byte) : List Prim := [.rd 0x43 [b], .emit (.discardedByte b)]

/-- A scan over bytes that are neither a marker nor 0, up to a byte that ends it. -/
theorem opScan_quiet {s : State} {junk rest : List Byte} {b : Byte} {m : Marker} {reads : Nat} (henv : s.env = [])
    (hjunk : ∀ x ∈ junk, x ≠ 0xE0 ∧ x ≠ 0xC0 ∧ x ≠ 0x00) (hb : markerOf b = some m) (hreads : junk.length < reads)
    (hr : s.phy.rx = junk ++ b :: rest) :
    ∃ c, evalOp (opScan reads) s =
      .ok m (received c (junk.flatMap discards ++ [.rd 0x43 [b]]) (junk.map Event.discardedByte) rest s) := by
  induction junk generalizing s reads with
  | nil =>
    obtain ⟨n, rfl⟩ := Nat.exists_eq_succ_of_ne_zero (Nat.ne_of_gt hreads)
    obtain ⟨c, hread⟩ := opCodecRead_quiet (n := 1) (bs := [b]) henv rfl hr
    refine ⟨c, ?_⟩
    simp only [opScan, evalOp_bind, hread, List.headD_cons, hb, evalOp_pure]
    rfl
  | cons x junk ih =>
    obtain ⟨n, rfl⟩ := Nat.exists_eq_succ_of_ne_zero (Nat.ne_of_gt (Nat.lt_of_le_of_lt (Nat.zero_le _) hreads))
    obtain ⟨c, hread⟩ := opCodecRead_quiet (n := 1) (bs := [x]) (rest := junk ++ b :: rest) henv rfl hr
    obtain ⟨⟨hx1, hx2, hx3⟩, hrest⟩ := List.forall_mem_cons.1 hjunk
    have hx : markerOf x = none := by simp only [markerOf, if_neg hx1, if_neg hx2, if_neg hx3]
    have hemit : emitEvent (.discardedByte x) (received c (fifoReads [x]) [] (junk ++ b :: rest) s) =
        received c (discards x) [.discardedByte x] (junk ++ b :: rest) s := by
      simp [emitEvent, received, logPrim, discards, fifoReads]
    obtain ⟨d, hscan⟩ := ih (s := received c (discards x) [.discardedByte x] (junk ++ b :: rest) s) henv hrest
      (Nat.lt_of_succ_lt_succ hreads) rfl
    refine ⟨d, ?_⟩
    simp only [opScan, evalOp_bind, hread, List.headD_cons, hx, evalOp_seq, evalOp_emit, hemit, hscan, received_received]
    rfl

/-! ## `PARSE_MESSAGE` and the marker rows (R106, R200) -/

/-- The marker byte of a SOP kind starts a frame of that kind (R106). -/
theorem markerOf_markerByte (sop : Sop) : markerOf (if sop = .primary then 0xE0 else 0xC0) = some (.frame sop) := by
  cases sop <;> rfl

/-- `PARSE_MESSAGE` with a whole frame in the FIFO behind garbage. -/
theorem opParseMessage_quiet {s : State} {junk : List Byte} {mark : Byte} {sop : Sop} {b0 b1 : Byte} {objs : List Word32}
    {crc rest : List Byte} {reads : Nat} (henv : s.env = []) (hjunk : ∀ x ∈ junk, x ≠ 0xE0 ∧ x ≠ 0xC0 ∧ x ≠ 0x00)
    (hmark : markerOf mark = some (.frame sop)) (hreads : junk.length < reads)
    (hobjs : objs.length = (headerCount b0).toNat) (hcrc : crc.length = 4)
    (hr : s.phy.rx = junk ++ mark :: b0 :: b1 :: (objs.flatMap wordBytes ++ crc ++ rest)) :
    evalOp (opParseMessage reads) s = .ok (some (buildMessage sop (decodeHeader sop b0 b1) objs))
      (received none (junk.flatMap discards ++ .rd 0x43 [mark] :: .rd 0x43 [b0, b1] :: bodyReads objs crc)
        (junk.map Event.discardedByte) rest s) := by
  obtain ⟨c, hscan⟩ := opScan_quiet (s := setScan (some ⟨0, none, none, []⟩) s) henv hjunk hmark hreads hr
  have hframe := opParseFrame_quiet (sop := sop) (s := received c (junk.flatMap discards ++ [.rd 0x43 [mark]])
    (junk.map Event.discardedByte) (b0 :: b1 :: (objs.flatMap wordBytes ++ crc ++ rest)) s) henv hobjs hcrc rfl
  simp only [opParseMessage, evalOp_seq, evalOp_modify, evalOp_bind, hscan, received_setScan, hframe, received_received,
    evalOp_pure]
  simp only [List.append_assoc, List.append_nil, List.singleton_append]

/-- The message of a frame is the one the statements write out (R203, R206, R207). -/
theorem buildMessage_decodeHeader (sop : Sop) (b0 b1 : Byte) (objs : List Word32) :
    buildMessage sop (decodeHeader sop b0 b1) objs = FrameMessage sop b0 b1 objs := by
  have hcls : classOf (headerCount b0).toNat = if b0.extractLsb' 4 3 = 0#3 then .control else .data := classOf_toNat _
  calc buildMessage sop (decodeHeader sop b0 b1) objs
    _ = ⟨sop, decodeHeader sop b0 b1, classOf (headerCount b0).toNat,
          typeLookup (classOf (headerCount b0).toNat) (headerType b1), objs,
          (buildMessage sop (decodeHeader sop b0 b1) objs).vdm⟩ := rfl
    _ = FrameMessage sop b0 b1 objs := by rw [buildMessage_vdm, hcls]; rfl

/-- A parse that ends in its own step is the instruction's result. -/
theorem execParseMessage_ended {s t : State} {m : Option Message}
    (h : evalOp (opParseMessage (scanReads s)) s = .ok m t) :
    exec .parseMessage s = .next (setResult (parseValue m) t) := by
  change runScan (some .parseMessage) parseValue (opParseMessage (scanReads s)) s = _
  rw [runScan_ended (fun u => by rw [h]; exact nofun), runOp, h, conclude_ok]

/-- The reads an instruction's own step makes are more than the bytes in the FIFO (log 18). -/
theorem rx_length_lt_scanReads (s : State) : s.phy.rx.length < scanReads s := by
  rw [scanReads]; omega

/-- The codec action on a marker, with the rest of its frame in the FIFO (R106). -/
theorem opMarker_quiet {s : State} {sop : Sop} {b0 b1 : Byte} {objs : List Word32} {crc rest : List Byte}
    (henv : s.env = []) (hobjs : objs.length = (headerCount b0).toNat) (hcrc : crc.length = 4)
    (hr : s.phy.rx = b0 :: b1 :: (objs.flatMap wordBytes ++ crc ++ rest)) :
    evalOp (opMarker sop) s = .ok (buildMessage sop (decodeHeader sop b0 b1) objs)
      (received none (.rd 0x43 [b0, b1] :: bodyReads objs crc) [] rest s) := by
  have hframe := opParseFrame_quiet (sop := sop) (s := setScan (some ⟨1, none, none, []⟩) s) henv hobjs hcrc hr
  rw [opMarker, evalOp_seq, evalOp_modify]
  exact hframe

/-- Settles O34: the scan over the garbage, then the frame; and the marker rows. -/
theorem parseMessageReadsOneFrame : Obligations.ParseMessageReadsOneFrame := by
  refine ⟨fun s junk sop b0 b1 objs crc rest henv hjunk hobjs hcrc hr => ?_,
    fun s sop b0 b1 objs crc rest henv => ⟨⟨_, rfl, rfl, rfl, rfl, rfl, rfl, rfl⟩, fun hobjs hcrc hr => ?_⟩⟩
  · have hreads : junk.length < scanReads s := by
      refine Nat.lt_of_le_of_lt ?_ (rx_length_lt_scanReads s)
      rw [hr, List.length_append]
      exact Nat.le_add_right _ _
    have hparse := opParseMessage_quiet henv hjunk (markerOf_markerByte sop) hreads hobjs hcrc hr
    rw [buildMessage_decodeHeader] at hparse
    exact ⟨_, execParseMessage_ended hparse, rfl, rfl, rfl, rfl, rfl, rfl, rfl, rfl, fun _ _ => rfl,
      ⟨rfl, rfl, rfl, rfl, rfl, rfl, rfl, rfl, rfl⟩⟩
  · have hexec : exec (if sop = .primary then .rxSop else .rxSopPrime) s = runOp .message (opMarker sop) s := by
      cases sop <;> rfl
    rw [hexec, runOp, opMarker_quiet henv hobjs hcrc hr, buildMessage_decodeHeader]
    exact ⟨_, rfl, rfl, rfl, rfl, rfl, List.append_nil _, rfl, rfl, fun _ _ => rfl,
      ⟨rfl, rfl, rfl, rfl, rfl, rfl, rfl, rfl, rfl⟩⟩

end Sys2Proof.Machine
end

section
/-! Proofs of the statements of `30_encoding.md`, fourth part: the rows of received headers without a reaction (O36). -/

namespace Sys2Proof.Machine

/-! ## Names without a reaction (R284, R308, R312) -/

/-- The names a role reacts to (R284). -/
def reactions : Role → List MsgName
  | .sink => [.sourceCapabilities, .accept, .psRdy, .vendorDefined, .softReset]
  | .source => [.request, .softReset]

/-- An ignored type of a primary-SOP message is none the role reacts to. -/
theorem typeLookup_of_ignored {role : Role} {cls : MsgClass} {t : BitVec 5} (h : Ignored role .primary cls t) :
    typeLookup cls t ∉ reactions role := by
  have all : ∀ t : BitVec 5, Ignored role .primary cls t → typeLookup cls t ∉ reactions role := by
    cases role <;> cases cls <;> unfold Ignored <;> decide
  exact all t h

/-- The sink ignores every name it does not react to (R284, R312). -/
theorem opSinkDispatch_ignored {m : Message} (h : m.name ∉ reactions .sink) : opSinkDispatch m = opPure () := by
  unfold opSinkDispatch
  split
  case h_6 => rfl
  all_goals next hname => simp [reactions, hname] at h

/-- The source ignores every name it does not react to (R284, R308, R312). -/
theorem opSourceDispatch_ignored {m : Message} (h : m.name ∉ reactions .source) : opSourceDispatch m = opPure () := by
  unfold opSourceDispatch
  split
  case h_3 => rfl
  all_goals next hname => simp [reactions, hname] at h

/-- The class of a message with at most 7 objects (R110, R111). -/
theorem classOf_ofNat_length {n : Nat} (h : n ≤ 7) :
    classOf (BitVec.ofNat 3 n).toNat = if n = 0 then .control else .data := by
  rw [BitVec.toNat_ofNat, Nat.mod_eq_of_lt (by omega), classOf]

/-- `DISPATCH` of a message without a reaction does nothing (R284, R308, R310 to R312). -/
theorem opDispatch_ignored {s : State} {b : MsgBits} {t : BitVec 5} {objs : List Word32} (hlen : objs.length ≤ 7)
    (h : Ignored s.cfg.role b.sop (if objs.length = 0 then .control else .data) t) :
    evalOp (opDispatch (messageOf b t objs)) s = .ok () s := by
  have hname : (messageOf b t objs).name = typeLookup (if objs.length = 0 then .control else .data) t := by
    rw [← classOf_ofNat_length hlen]; rfl
  have hsop : (messageOf b t objs).sop = b.sop := rfl
  cases hb : b.sop with
  | prime => simp only [opDispatch, hsop, hb, reduceCtorEq, if_false, evalOp_pure]
  | primary =>
    rw [hb] at h
    have hnone := typeLookup_of_ignored h
    rw [← hname] at hnone
    simp only [opDispatch, hsop, hb, if_true, evalOp_bind, evalOp_cfg]
    cases hrole : s.cfg.role with
    | sink =>
      rw [hrole] at hnone
      simp only [opSinkDispatch_ignored hnone, evalOp_pure]
    | source =>
      rw [hrole] at hnone
      simp only [opSourceDispatch_ignored hnone, evalOp_pure]

/-! ## The header rows (R114 to R116, R283) -/

/-- Every Control row is the rest of the receive step for its type: the 24 of the table, and the unknown ones (R116). -/
theorem exec_controlRow (b : MsgBits) (t : BitVec 5) (s : State) :
    exec (ControlRow b t) s = runOp .message (opReceived b 0#3 t) s := by
  have ht : t = BitVec.ofNat 5 t.toNat := by rw [BitVec.ofNat_toNat, BitVec.setWidth_eq]
  have low : ∀ u : BitVec 5, 24 ≤ u.toNat → 0b11#2 ++ u.extractLsb' 0 3 = u := by decide
  unfold ControlRow controlRow
  split
  case h_25 =>
    have hlarge : 24 ≤ t.toNat := by simp only [imp_false] at *; omega
    exact congrArg (fun u => runOp .message (opReceived b 0#3 u) s) (low t hlarge)
  all_goals next hk => rw [hk] at ht; subst ht; rfl

/-- Every Data row is the rest of the receive step for its type: the 16 of the table, and the unknown ones (R116). -/
theorem exec_dataRow (b : MsgBits) (n : BitVec 3) (t : BitVec 5) (s : State) :
    exec (DataRow b n t) s = runOp .message (opReceived b n t) s := by
  have ht : t = BitVec.ofNat 5 t.toNat := by rw [BitVec.ofNat_toNat, BitVec.setWidth_eq]
  have low : ∀ u : BitVec 5, 16 ≤ u.toNat → 1#1 ++ u.extractLsb' 0 4 = u := by decide
  unfold DataRow dataRow
  split
  case h_17 =>
    have hlarge : 16 ≤ t.toNat := by simp only [imp_false] at *; omega
    exact congrArg (fun u => runOp .message (opReceived b n u) s) (low t hlarge)
  all_goals next hk => rw [hk] at ht; subst ht; rfl

/-- The row of a header with the count of its objects, of either class. -/
theorem exec_headerRow (b : MsgBits) (t : BitVec 5) (objs : List Word32) (s : State) :
    exec (if objs.length = 0 then ControlRow b t else DataRow b (BitVec.ofNat 3 objs.length) t) s =
      runOp .message (opReceived b (BitVec.ofNat 3 objs.length) t) s := by
  split
  · next h => rw [h]; exact exec_controlRow b t s
  · exact exec_dataRow b _ t s

/-- A header row reads the objects and the CRC; dispatch and report follow (R204 to R207, R283). -/
theorem opReceived_quiet {s : State} {b : MsgBits} {t : BitVec 5} {objs : List Word32} {crc rest : List Byte}
    (henv : s.env = []) (hlen : objs.length ≤ 7) (hcrc : crc.length = 4)
    (hr : s.phy.rx = objs.flatMap wordBytes ++ crc ++ rest) :
    evalOp (opReceived b (BitVec.ofNat 3 objs.length) t) s =
      evalOp (opSeq (opHandle (messageOf b t objs)) (opPure (messageOf b t objs)))
        (received none (bodyReads objs crc) [] rest s) := by
  have hcount : objs.length = (BitVec.ofNat 3 objs.length).toNat := by
    rw [BitVec.toNat_ofNat, Nat.mod_eq_of_lt (by omega)]
  have hbody := opParseBody_quiet (sop := b.sop) (hdr := headerOf b (BitVec.ofNat 3 objs.length) t)
    (s := setScan (some ⟨3, some b.sop, some (headerOf b (BitVec.ofNat 3 objs.length) t), []⟩) s) henv hcount hcrc hr
  simp only [opReceived, evalOp_seq, evalOp_modify, evalOp_bind, hbody, received_setScan, messageOf]

/-- Settles O36: objects and CRC are read, the dispatch does nothing, the message is reported. -/
theorem ignoredHeadersAreOnlyReported : Obligations.IgnoredHeadersAreOnlyReported := by
  intro s b t objs crc rest henv hlen hcrc hr hignored
  have hdispatch := opDispatch_ignored (s := received none (bodyReads objs crc) [] rest s) hlen hignored
  have hrow : evalOp (opReceived b (BitVec.ofNat 3 objs.length) t) s =
      .ok (messageOf b t objs)
        (emitEvent (.received (messageOf b t objs)) (received none (bodyReads objs crc) [] rest s)) := by
    simp only [opReceived_quiet henv hlen hcrc hr, opHandle, evalOp_seq, hdispatch, evalOp_emit, evalOp_pure]
  rw [exec_headerRow, runOp, hrow]
  refine ⟨_, rfl, rfl, ?_, rfl, rfl, rfl, rfl, rfl, rfl, rfl, rfl, fun _ _ => rfl,
    ⟨rfl, rfl, rfl, rfl, rfl, rfl, rfl, rfl, rfl⟩⟩
  simp [Emits, received]

end Sys2Proof.Machine
end

section
/-! Proofs of the statements of `40_transceiver.md`: operands out of range (O25), `DECODE_INT` (O19), the levels and the
detection of a pin (O17), `FIND_CC` (O18), `INT_STEP` (O44). -/

namespace Sys2Proof.Machine

/-! ## Operands out of range (R158, R178, R342) -/

/-- An operation whose check fails only takes the exception (R354). -/
theorem runOp_require_false {α : Type} (value : α → Value) {ok : Bool} {e : Err} {k : Op α} (h : ok = false)
    (s : State) : runOp value (opRequire ok e k) s = .next (surface e s) := by
  rw [h]; rfl

/-- A check comes first also where another operation follows. -/
theorem opBind_require {α β : Type} (ok : Bool) (e : Err) (k : Op α) (f : α → Op β) :
    opBind (opRequire ok e k) f = opRequire ok e (opBind k f) := by
  cases ok <;> rfl

theorem isPin_eq_false {pin : Byte} (h1 : pin ≠ 1) (h2 : pin ≠ 2) : isPin pin.toNat = false :=
  decide_eq_false fun h => h.elim (fun h => h1 (BitVec.eq_of_toNat_eq h)) fun h => h2 (BitVec.eq_of_toNat_eq h)

theorem legalLength_eq_false {n : Nat} (h : ∀ k, k ≤ 7 → n ≠ 2 + 4 * k) : legalLength n = false :=
  decide_eq_false fun _ => h ((n - 2) / 4) (by omega) (by omega)

/-- Settles O25: each check fails before anything else, and the builders have no other answer. -/
theorem refusedOperandsRaise : Obligations.RefusedOperandsRaise := by
  refine ⟨fun s => ⟨fun pin h1 h2 => ⟨?_, ?_⟩, fun code debug hcode => ?_, fun p hp => ?_⟩,
    fun s fields extra svid payload => ⟨rfl, rfl, rfl, rfl⟩⟩
  · exact runOp_require_false _ (isPin_eq_false h1 h2) s
  · exact runOp_require_false _ (isPin_eq_false h1 h2) s
  · have hbad : decide (code.toNat ≤ 3) = false := decide_eq_false (Nat.not_le.2 hcode)
    refine ⟨runOp_require_false _ hbad s, ?_, runOp_require_false _ hbad s⟩
    change runOp .pin (opBind (opDetectSource code.toNat debug) opSettleOn) s = _
    rw [opDetectSource, opBind_require]
    exact runOp_require_false _ hbad s
  · exact runOp_require_false _ (legalLength_eq_false hp) s

/-! ## `DECODE_INT` (R171) -/

/-- The images of the elements picked, one element at a time. -/
theorem map_filter_eq_flatMap {α β : Type} (p : α → Bool) (f : α → β) (l : List α) :
    (l.filter p).map f = l.flatMap fun a => if p a then [f a] else [] := by
  induction l with
  | nil => rfl
  | cons a l ih => cases h : p a <;> simp [h, ih]

/-- The conditions the model decodes are those of the set bits, bit 7 first (R171, R287). -/
theorem decodeInt_eq (i : Byte) : decodeInt i = SetConditions i := by
  rw [decodeInt, map_filter_eq_flatMap]
  simp only [intConditions, List.flatMap_cons, List.flatMap_nil, List.append_nil, SetConditions, List.append_assoc]

/-- Settles O19: a pure operation, on the conditions of the set bits. -/
theorem decodeIntNamesTheSetBits : Obligations.DecodeIntNamesTheSetBits := by
  intro i s
  rw [← decodeInt_eq]
  exact runOp_pure .conditions (decodeInt i) s

/-! ## Stretches of the driver's operations -/

/-- The bus completes every transaction, and the registers are in form. -/
structure Responsive (s : State) : Prop where
  bus : BusCompletes s
  wf : Memory.wf s.phy.regs = true
  mapped : RegsMapped s.phy.regs

/-- What a stretch of completed transactions, waits and events leaves: it takes `n` entries of the schedule, emits `es`,
and changes no register outside `changed`; with an empty schedule the PHY's latches, live status and cable stay. -/
structure Drives (n : Nat) (changed : List Nat) (es : List Event) (s t : State) : Prop where
  block : KeepsBlock s t
  ses : t.ses = s.ses
  diag : Emits s t es
  env : t.env = s.env.drop n
  wf : Memory.wf s.phy.regs = true → Memory.wf t.phy.regs = true
  mapped : RegsMapped s.phy.regs → RegsMapped t.phy.regs
  regs : KeepsRegs changed s t
  tx : t.phy.tx.length ≤ s.phy.tx.length
  levels : LevelsSteady s → t.phy.cc1 = s.phy.cc1 ∧ t.phy.cc2 = s.phy.cc2
  latches : s.env = [] → KeepsLatches s t

section Stretches

variable {m n : Nat} {changed : List Nat} {es fs : List Event} {s t u : State}

theorem KeepsBlock.trans (h : KeepsBlock s t) (k : KeepsBlock t u) : KeepsBlock s u :=
  ⟨k.cfg.trans h.cfg, k.ctl.trans h.ctl, k.notes.trans h.notes, k.running.trans h.running,
    k.lastError.trans h.lastError, k.scan.trans h.scan, k.stops.trans h.stops, k.selects.trans h.selects,
    k.validates.trans h.validates, k.port.trans h.port⟩

/-- Session and result are no part of what `KeepsBlock` says. -/
theorem KeepsBlock.concluded (h : KeepsBlock s t) (f : Session → Session) (v : Value) :
    KeepsBlock s (setResult v (updSes f t)) :=
  ⟨h.cfg, h.ctl, h.notes, h.running, h.lastError, h.scan, h.stops, h.selects, h.validates, h.port⟩

theorem KeepsRegs.trans (h : KeepsRegs changed s t) (k : KeepsRegs changed t u) : KeepsRegs changed s u :=
  fun a ha => (k a ha).trans (h a ha)

theorem KeepsFifos.trans (h : KeepsFifos s t) (k : KeepsFifos t u) : KeepsFifos s u :=
  ⟨k.rx.trans h.rx, k.tx.trans h.tx⟩

theorem KeepsFifos.of_phy (h : t.phy = s.phy) : KeepsFifos s t := by constructor <;> rw [h]

theorem KeepsLatches.of_phy (h : t.phy = s.phy) : KeepsLatches s t := by constructor <;> rw [h]

theorem KeepsLatches.trans (h : KeepsLatches s t) (k : KeepsLatches t u) : KeepsLatches s u :=
  ⟨k.intA.trans h.intA, k.intB.trans h.intB, k.intI.trans h.intI, k.cc1.trans h.cc1, k.cc2.trans h.cc2,
    k.status0.trans h.status0, k.status1.trans h.status1, k.status1a.trans h.status1a, k.wire.trans h.wire⟩

theorem Drives.quiet (h : Drives n changed es s t) (hq : s.env = []) : t.env = [] := by
  rw [h.env, hq, List.drop_nil]

theorem Drives.steady (h : Drives n changed es s t) (hl : LevelsSteady s) : LevelsSteady t := by
  intro e he
  rw [h.env] at he
  exact hl e (List.mem_of_mem_drop he)

theorem Drives.responsive (h : Drives n changed es s t) (hs : Responsive s) : Responsive t := by
  refine ⟨fun e he => ?_, h.wf hs.wf, h.mapped hs.mapped⟩
  rw [h.env] at he
  exact hs.bus e (List.mem_of_mem_drop he)

theorem Drives.trans (h : Drives m changed es s t) (k : Drives n changed fs t u) :
    Drives (m + n) changed (es ++ fs) s u where
  block := h.block.trans k.block
  ses := k.ses.trans h.ses
  diag := by rw [Emits, k.diag, h.diag, List.append_assoc]
  env := by rw [k.env, h.env, List.drop_drop]
  wf hw := k.wf (h.wf hw)
  mapped hm := k.mapped (h.mapped hm)
  regs := h.regs.trans k.regs
  tx := Nat.le_trans k.tx h.tx
  levels hl :=
    have ⟨h1, h2⟩ := h.levels hl
    have ⟨k1, k2⟩ := k.levels (h.steady hl)
    ⟨k1.trans h1, k2.trans h2⟩
  latches hq := (h.latches hq).trans (k.latches (h.quiet hq))

/-- A stretch changes at most more registers than it changes. -/
theorem Drives.mono {more : List Nat} (h : Drives n changed es s t) (hsub : changed ⊆ more) : Drives n more es s t :=
  { h with regs := fun a ha => h.regs a fun hmem => ha (hsub hmem) }

/-- A transaction that changes of the PHY nothing but what the schedule brings, and a started transmission. -/
theorem drives_of_tick {ps : List Prim} {go : Bool} (h : Moved ps s t) (henv : t.env = s.env.tail)
    (hphy : t.phy = { (envTick s).phy with txGo := go }) : Drives 1 changed [] s t where
  block := h.block
  ses := h.ses
  diag := by rw [Emits, h.diag, List.append_nil]
  env := by rw [henv, List.drop_one]
  wf hw := by rwa [hphy, envTick_regs]
  mapped hm := by rwa [hphy, envTick_regs]
  regs _ _ := by rw [hphy, envTick_regs]
  tx := by rw [hphy]; exact envTick_tx_length s
  levels hl := by rw [hphy]; exact envTick_levels hl
  latches hq := by
    rw [envTick_quiet hq] at hphy
    constructor <;> rw [hphy]

/-- A wait takes nothing of the schedule. -/
theorem drives_wait (d : Nat) (s : State) : Drives 0 changed [] s (logPrim (.wait d) (passTime d s)) :=
  ⟨(moved_wait d s).block, rfl, (List.append_nil _).symm, rfl, id, id, fun _ _ => rfl, Nat.le_refl _,
    fun _ => ⟨rfl, rfl⟩, fun _ => ⟨rfl, rfl, rfl, rfl, rfl, rfl, rfl, rfl, rfl⟩⟩

/-- An event takes nothing of the schedule. -/
theorem drives_emit (e : Event) (s : State) : Drives 0 changed [e] s (emitEvent e s) :=
  ⟨⟨rfl, rfl, rfl, rfl, rfl, rfl, rfl, rfl, rfl, rfl⟩, rfl, rfl, rfl, id, id, fun _ _ => rfl, Nat.le_refl _,
    fun _ => ⟨rfl, rfl⟩, fun _ => .of_phy rfl⟩

end Stretches

/-! ## Read-modify-writes of the driver -/

/-- Bits outside a mask stay under its complement. -/
theorem and_not_of_and_eq_zero {v m : Byte} (h : v &&& m = 0) : v &&& ~~~m = v := by
  ext i hi
  have hbit : (v[i] && m[i]) = false := by simp [← BitVec.getElem_and, h]
  rw [BitVec.getElem_and, BitVec.getElem_not]
  cases hv : v[i] with
  | false => rfl
  | true => rw [hv, Bool.true_and] at hbit; rw [hbit]; rfl

/-- A byte's kept bits stay when it is written again with `W/C` bits on top (R63). -/
theorem storedBits_or_act {info : RegInfo} {v w : Byte} (hv : v &&& (info.act ||| info.zero) = 0)
    (hw : storedBits info w = 0) : storedBits info (v ||| w) = v := by
  rw [storedBits] at hw ⊢
  calc (v ||| w) &&& ~~~(info.act ||| info.zero)
    _ = (v &&& ~~~(info.act ||| info.zero)) ||| (w &&& ~~~(info.act ||| info.zero)) := by
      ext i; simp [Bool.and_or_distrib_right]
    _ = v := by rw [hw, and_not_of_and_eq_zero hv]; exact BitVec.or_zero

/-- A write of an `R/W` register keeps the memory one of the map's registers (R34, R63). -/
theorem RegsMapped.regWrite {m : Memory} (h : RegsMapped m) {a : Nat} {info : RegInfo} (hi : regInfo a = some info)
    (ha : info.access = .readWrite) (v : Byte) : RegsMapped (regWrite m a (storedBits info v)) := by
  intro c hc
  obtain rfl | hc := regWrite_mem hc
  · have haddr : info.addr = a := by simpa using List.find?_some hi
    refine ⟨info, List.mem_of_find?_eq_some hi, haddr, ha, ?_⟩
    rw [storedBits, BitVec.and_assoc, BitVec.and_comm (~~~_)]
    ext i; simp
  · exact h c hc

/-- The PHY after the byte `v` was written to an `R/W` register of the map (R63, R68). -/
def written (cfg : Cfg) (info : RegInfo) (addr v : Byte) (p : Phy) : Phy :=
  writeAction cfg addr v { p with regs := regWrite p.regs addr.toNat (storedBits info v) }

@[simp] theorem written_regs (cfg : Cfg) (info : RegInfo) (addr v : Byte) (p : Phy) :
    (written cfg info addr v p).regs = regWrite p.regs addr.toNat (storedBits info v) := writeAction_regs _ _ _ _

/-- A write to a register other than Control3, which alone can put something on the cable, changes besides the registers
the FIFOs, the pending start and the comparator's settling only. -/
theorem written_changes (cfg : Cfg) (info : RegInfo) {addr : Byte} (v : Byte) (p : Phy) (h9 : addr ≠ 0x09) :
    written cfg info addr v p = { p with
      regs := regWrite p.regs addr.toNat (storedBits info v)
      rx := (written cfg info addr v p).rx, tx := (written cfg info addr v p).tx
      txGo := (written cfg info addr v p).txGo, settle := (written cfg info addr v p).settle } := by
  simp only [written, writeAction, if_neg h9]
  repeat' split
  all_goals rfl

/-- A write to a register does not grow the TX FIFO. -/
theorem written_tx_length (cfg : Cfg) (info : RegInfo) (addr v : Byte) (p : Phy) :
    (written cfg info addr v p).tx.length ≤ p.tx.length := by
  simp only [written, writeAction]
  repeat' split
  all_goals simp

section ReadModifyWrites

variable {changed : List Nat} {s : State} {addr w : Byte} {info : RegInfo}

/-- A write of an `R/W` register other than Control3, without the schedule. A register outside `changed` takes the value
it had. -/
theorem drives_written (hwf : Memory.wf s.phy.regs = true) (hi : regInfo addr.toNat = some info)
    (ha : info.access = .readWrite) (h9 : addr ≠ 0x09)
    (hc : addr.toNat ∉ changed → storedBits info w = regRead s.phy.regs addr.toNat) :
    Drives 0 changed [] s (logPrim (.wr addr [w]) { s with phy := written s.cfg info addr w s.phy }) where
  block := ⟨rfl, rfl, rfl, rfl, rfl, rfl, rfl, rfl, rfl, rfl⟩
  ses := rfl
  diag := (List.append_nil _).symm
  env := rfl
  wf h := by rw [logPrim_phy, written_regs]; exact Memory.wf_regWrite _ _ _ h
  mapped h := by rw [logPrim_phy, written_regs]; exact h.regWrite hi ha w
  regs a hna := by
    rw [logPrim_phy, written_regs]
    by_cases haddr : a = addr.toNat
    · subst haddr; rw [regRead_regWrite_same _ _ _ hwf, hc hna]
    · exact regRead_regWrite_other _ _ haddr
  tx := written_tx_length _ _ _ _ _
  levels _ := by rw [logPrim_phy, written_changes _ _ _ _ h9]; exact ⟨rfl, rfl⟩
  latches _ := by constructor <;> rw [logPrim_phy, written_changes _ _ _ _ h9]

/-- A read-modify-write of an `R/W` register other than Control3, and the PHY before its write. A register outside
`changed` takes the value it had. -/
theorem rmw_drives (op : Byte) {clear set : Byte} (hs : Responsive s) (hi : regInfo addr.toNat = some info)
    (ha : info.access = .readWrite) (h43 : addr ≠ 0x43) (h9 : addr ≠ 0x09)
    (hw : (regRead s.phy.regs addr.toNat &&& ~~~clear) ||| set = w)
    (hc : addr.toNat ∉ changed → storedBits info w = regRead s.phy.regs addr.toNat) :
    ∃ t p, evalOp (rmw op addr clear set) s = .ok () t ∧ Drives 2 changed [] s t ∧
      regRead t.phy.regs addr.toNat = storedBits info w ∧ (s.env = [] → p = s.phy) ∧
      t.phy = written s.cfg info addr w p := by
  have hread : Drives 1 changed [] s (logPrim (.rd addr [regRead s.phy.regs addr.toNat]) (envTick s)) :=
    drives_of_tick ((moved_envTick s).trans (moved_logPrim _ _)) (envTick_env s) rfl
  generalize hu : logPrim (.rd addr [regRead s.phy.regs addr.toNat]) (envTick s) = u at hread
  have htick : Drives 1 changed [] u (envTick u) := drives_of_tick (moved_envTick u) (envTick_env u) rfl
  have hregs : (envTick u).phy.regs = s.phy.regs := by rw [envTick_regs, ← hu, logPrim_phy, envTick_regs]
  have hcfg : (envTick u).cfg = s.cfg := (hread.trans htick).block.cfg
  have hwrite := drives_written (s := envTick u) (hregs ▸ hs.wf) hi ha h9 (hregs ▸ hc)
  have hrun := rmw_rw (op := op) (clear := clear) (set := set) hs.bus hi ha h43
  rw [hw, hu, ← hregs, ← hcfg] at hrun
  refine ⟨_, (envTick u).phy, hrun, (hread.trans htick).trans hwrite, ?_, fun hq => ?_, by rw [← hcfg]; rfl⟩
  · exact (congrArg (regRead · _) (written_regs _ _ _ _ _)).trans (regRead_regWrite_same _ _ _ (hregs ▸ hs.wf))
  · rw [envTick_quiet (hread.quiet hq), ← hu, logPrim_phy, envTick_quiet hq]

end ReadModifyWrites

/-! ## The levels (R154 to R157) -/

/-- The bit of the measure mux for a pin (R36). -/
def muxBit (pin : Nat) : Byte := if pin = 1 then 0x04 else 0x08

/-- Switches0 with one pin in the measure mux and its other bits kept (R154). -/
def muxOn (pin : Nat) (sw : Byte) : Byte := (sw &&& 0xF3) ||| muxBit pin

/-- The level of a pin. -/
def levelOf (p : Phy) (pin : Nat) : BitVec 2 := if pin = 1 then p.cc1 else p.cc2

/-- Of a Switches0 with one pin selected, the mux bits say which. -/
theorem muxOn_and (pin : Nat) (sw : Byte) : muxOn pin sw &&& 0x0C = muxBit pin := by
  have clear : sw &&& 0xF3 &&& 0x0C = 0 := by rw [BitVec.and_assoc]; exact BitVec.and_zero
  have own : muxBit pin &&& 0x0C = muxBit pin := by rw [muxBit]; split <;> decide
  rw [muxOn]
  calc (sw &&& 0xF3 ||| muxBit pin) &&& 0x0C
    _ = (sw &&& 0xF3 &&& 0x0C) ||| (muxBit pin &&& 0x0C) := by ext i; simp [Bool.and_or_distrib_right]
    _ = muxBit pin := by rw [clear, own]; exact BitVec.zero_or

/-- The last selection counts. -/
theorem muxOn_muxOn (pin other : Nat) (sw : Byte) : muxOn pin (muxOn other sw) = muxOn pin sw := by
  have clear : muxBit other &&& 0xF3 = 0 := by rw [muxBit]; split <;> decide
  have other_gone : muxOn other sw &&& 0xF3 = sw &&& 0xF3 := by
    calc (sw &&& 0xF3 ||| muxBit other) &&& 0xF3
      _ = (sw &&& 0xF3 &&& 0xF3) ||| (muxBit other &&& 0xF3) := by ext i; simp [Bool.and_or_distrib_right]
      _ = sw &&& 0xF3 := by rw [clear, BitVec.and_assoc, BitVec.and_self]; exact BitVec.or_zero
  rw [muxOn, other_gone, muxOn]

/-- A settled comparator with one pin in the measure mux gives that pin's level (R36, R400). -/
theorem settledLevel_of_mux {p : Phy} {pin : Nat} (hsettle : p.settle = 0)
    (hmux : regRead p.regs 0x02 &&& 0x0C = muxBit pin) : settledLevel p = some (levelOf p pin) := by
  have bit : ∀ i, (regRead p.regs 0x02 &&& 0x0C).getLsbD i = (muxBit pin).getLsbD i := fun i => by rw [hmux]
  have h2 : (regRead p.regs 0x02).getLsbD 2 = (muxBit pin).getLsbD 2 := by simpa using bit 2
  have h3 : (regRead p.regs 0x02).getLsbD 3 = (muxBit pin).getLsbD 3 := by simpa using bit 3
  simp only [settledLevel, if_pos hsettle, h2, h3]
  by_cases hp : pin = 1
  · subst hp; rfl
  · rw [muxBit, levelOf, if_neg hp, if_neg hp]; rfl

/-- Status0 shows some code in its low bits, the settled level if there is one (R53, R400, I1). -/
theorem readStatus0_shows (s : State) :
    ∃ c d, readStatus0 s = (status0Byte s.phy c, { s with draws := d }) ∧
      ∀ l, settledLevel s.phy = some l → c = l := by
  cases h : settledLevel s.phy with
  | none => exact ⟨Config.unsettledLevel s.draws, s.draws + 1, by simp only [readStatus0, h], nofun⟩
  | some l => exact ⟨l, s.draws, by simp only [readStatus0, h], fun _ => Option.some.inj⟩

/-- The code in the low bits of Status0 (R53, R155). -/
theorem status0Byte_low (p : Phy) (c : BitVec 2) :
    (status0Byte p c).extractLsb' 0 2 = c ∧ status0Byte p c &&& 0x03 = c.setWidth 8 := by
  have all : ∀ (x : BitVec 6) (c : BitVec 2), (x ++ c : BitVec 8).extractLsb' 0 2 = c ∧
      (x ++ c : BitVec 8) &&& 0x03 = c.setWidth 8 := by decide
  exact all p.status0 c

/-- `CURRENT_LEVEL` reads Status0 once and answers its low bits (R155). -/
theorem opCurrentLevel_reads {s : State} (hf : busFate s = .completes) :
    ∃ c v t, evalOp opCurrentLevel s = .ok c t ∧ Moved [.rd 0x40 [v]] s t ∧ t.env = s.env.tail ∧
      t.phy = (envTick s).phy ∧ v &&& 0x03 = c.setWidth 8 ∧
      ∀ l, settledLevel (envTick s).phy = some l → c = l := by
  obtain ⟨c, d, hread, hsettled⟩ := readStatus0_shows (envTick s)
  have hphy : phyRead 0x40 1 (envTick s) =
      .done [status0Byte (envTick s).phy c] { envTick s with draws := d } := by
    change Answer.done [(readStatus0 (envTick s)).1] (readStatus0 (envTick s)).2 = _
    rw [hread]
  obtain ⟨hlow, hand⟩ := status0Byte_low (envTick s).phy c
  have hdraws : Moved [] (envTick s) { envTick s with draws := d } :=
    ⟨rfl, rfl, rfl, rfl, rfl, rfl, rfl, rfl, rfl, rfl, rfl, rfl, rfl, (List.append_nil _).symm, 0, rfl⟩
  refine ⟨c, _, _, ?_, ((moved_envTick s).trans hdraws).trans (moved_logPrim _ _), envTick_env s, rfl, hand,
    hsettled⟩
  simp only [opCurrentLevel, readReg, evalOp_bind, evalOp_memRead, busRead, hf, hphy, answered, answeredBytes,
    evalOp_pure, List.headD_cons, hlow]

/-- A stretch of the measurement: Switches0 ends with one pin in the measure mux and nothing else changes. -/
structure Measures (n : Nat) (pin : Nat) (es : List Event) (s t : State) : Prop extends Drives n [0x02] es s t where
  mux : regRead t.phy.regs 0x02 = muxOn pin (regRead s.phy.regs 0x02)
  fifos : s.env = [] → KeepsFifos s t

theorem Measures.trans {m n pin other : Nat} {es fs : List Event} {s t u : State} (h : Measures m other es s t)
    (k : Measures n pin fs t u) : Measures (m + n) pin (es ++ fs) s u where
  toDrives := h.toDrives.trans k.toDrives
  mux := by rw [k.mux, h.mux, muxOn_muxOn]
  fifos hq := (h.fifos hq).trans (k.fifos (h.quiet hq))

/-- What follows a measurement and keeps registers and FIFOs belongs to it. -/
theorem Measures.followed {m n pin : Nat} {es fs : List Event} {s t u : State} (h : Measures m pin es s t)
    (k : Drives n [] fs t u) (hfifos : t.env = [] → KeepsFifos t u) : Measures (m + n) pin (es ++ fs) s u where
  toDrives := h.toDrives.trans (k.mono (List.nil_subset _))
  mux := by rw [k.regs 0x02 List.not_mem_nil, h.mux]
  fifos hq := (h.fifos hq).trans (hfifos (h.quiet hq))

/-- The map's row of Switches0 (R36): an `R/W` register without bits that act or read 0. -/
def switches0 : RegInfo := ⟨0x02, .readWrite, 0x03, 0x00, 0x00⟩

/-- `MEASURE_CC` puts its pin into the measure mux and unsettles the comparator (R154, R400). -/
theorem opMeasureCc_measures {s : State} {pin : Nat} (hs : Responsive s) (hpin : isPin pin = true) :
    ∃ t, evalOp (opMeasureCc pin) s = .ok () t ∧ Measures 2 pin [] s t ∧ t.phy.settle = s.cfg.ccSettle := by
  obtain ⟨t, p, hrun, hdrives, hreg, hquiet, hphy⟩ := rmw_drives (changed := [0x02]) 0x05 (clear := 0x0C)
    (set := muxBit pin) (addr := 0x02) (info := switches0) hs rfl rfl (by decide) (by decide) rfl
    fun h => absurd (.head _) h
  have hfifos : s.env = [] → KeepsFifos s t := fun hq => by rw [hquiet hq] at hphy; constructor <;> rw [hphy] <;> rfl
  refine ⟨t, ?_, ⟨hdrives, hreg.trans BitVec.and_allOnes, hfifos⟩, by rw [hphy]; rfl⟩
  rw [opMeasureCc, hpin, opRequire_true]
  exact hrun

/-- A pin selected and waited for has its level read (R156, R157, R400). -/
theorem opMeasureSettled_measures {s : State} {pin : Nat} (hs : Responsive s) (hl : LevelsSteady s)
    (hpin : isPin pin = true) :
    ∃ t, evalOp (opMeasureSettled pin) s = .ok (levelOf s.phy pin) t ∧ Measures 3 pin [] s t := by
  obtain ⟨t, hselect, hmeasures, hsettle⟩ := opMeasureCc_measures hs hpin
  have hwaited := hmeasures.followed (drives_wait t.cfg.ccSettle t) fun _ => ⟨rfl, rfl⟩
  generalize hu : logPrim (.wait t.cfg.ccSettle) (passTime t.cfg.ccSettle t) = u at hwaited
  obtain ⟨c, v, w, hread, hmoved, henv, hphy, -, hlevel⟩ := opCurrentLevel_reads (hwaited.responsive hs).bus.fate
  have hread' := hwaited.followed (drives_of_tick hmoved henv hphy) fun hq => .of_phy (by rw [hphy, envTick_quiet hq])
  have hzero : (envTick u).phy.settle = 0 := by
    rw [envTick_settle, ← hu, logPrim_phy]
    exact Nat.sub_eq_zero_of_le (Nat.le_of_eq (hsettle.trans (congrArg Cfg.ccSettle hmeasures.block.cfg.symm)))
  have hmux : regRead (envTick u).phy.regs 0x02 &&& 0x0C = muxBit pin := by
    rw [envTick_regs, hwaited.mux, muxOn_and]
  have hc : c = levelOf s.phy pin := by
    obtain ⟨h1, h2⟩ := hread'.levels hl
    rw [hlevel _ (settledLevel_of_mux hzero hmux), levelOf, levelOf, ← hphy, h1, h2]
  refine ⟨w, ?_, hread'⟩
  simp only [opMeasureSettled, evalOp_seq, hselect, evalOp_bind, evalOp_cfg, evalOp_wait, hu, hread, hc]

/-- The event `debug` adds (R169). -/
def debugEvents (debug : Bool) (p : Phy) : List Event := if debug then [.ccMeasured p.cc1 p.cc2] else []

/-- Both levels are read, CC1 first (R156, R157, R169). -/
theorem opBothLevels_measures {s : State} (debug : Bool) (hs : Responsive s) (hl : LevelsSteady s) :
    ∃ t, evalOp (opBothLevels debug) s = .ok (s.phy.cc1, s.phy.cc2) t ∧
      Measures 6 2 (debugEvents debug s.phy) s t := by
  obtain ⟨t, hfirst, m1⟩ := opMeasureSettled_measures (pin := 1) hs hl rfl
  obtain ⟨u, hsecond, m2⟩ := opMeasureSettled_measures (pin := 2) (m1.responsive hs) (m1.steady hl) rfl
  have hlevel : levelOf t.phy 2 = s.phy.cc2 := (m1.levels hl).2
  have m := m1.trans m2
  rw [hlevel] at hsecond
  simp only [opBothLevels, evalOp_bind, hfirst, hsecond, evalOp_seq]
  cases debug with
  | false => exact ⟨u, rfl, m⟩
  | true => exact ⟨_, rfl, m.followed (drives_emit _ u) fun _ => .of_phy rfl⟩

/-- Whether a strategy reports the codes. -/
def reportsCodes : Detect → Bool
  | .sink debug => debug
  | .source _ debug => debug

/-- A detection answers the pin its strategy names for the two levels (R156, R157). -/
theorem opDetect_measures {s : State} {detect : Detect} (hs : Responsive s) (hl : LevelsSteady s)
    (hcode : ∀ code debug, detect = .source code debug → code.toNat ≤ 3) :
    ∃ t, evalOp (opDetect detect) s = .ok (StrategyPin detect s.phy.cc1 s.phy.cc2) t ∧
      Measures 6 2 (debugEvents (reportsCodes detect) s.phy) s t := by
  obtain ⟨t, hboth, hm⟩ := opBothLevels_measures (reportsCodes detect) hs hl
  refine ⟨t, ?_, hm⟩
  cases detect with
  | sink debug => rw [opDetect, opDetectSink, evalOp_bind, show evalOp (opBothLevels debug) s = _ from hboth]; rfl
  | source code debug =>
    rw [opDetect, opDetectSource, decide_eq_true (hcode code debug rfl), opRequire_true, evalOp_bind,
      show evalOp (opBothLevels debug) s = _ from hboth]
    rfl

/-- What running a detection as an instruction leaves (R156, R157, R169). -/
theorem runOp_opDetect {s : State} {detect : Detect} (hs : Responsive s) (hl : LevelsSteady s)
    (hcode : ∀ code debug, detect = .source code debug → code.toNat ≤ 3) :
    ∃ t, runOp .pin (opDetect detect) s = .next t ∧ t.result = .pin (StrategyPin detect s.phy.cc1 s.phy.cc2) ∧
      Emits s t (debugEvents (reportsCodes detect) s.phy) ∧
      regRead t.phy.regs 0x02 = (regRead s.phy.regs 0x02 &&& 0xF3) ||| 0x08 ∧ KeepsRegs [0x02] s t ∧
      KeepsBlock s t ∧ t.ses = s.ses ∧ (s.env = [] → KeepsFifos s t ∧ KeepsLatches s t) := by
  obtain ⟨t, hrun, hm⟩ := opDetect_measures hs hl hcode
  have hnext : runOp .pin (opDetect detect) s = .next (setResult _ t) := congrArg (conclude _) hrun
  exact ⟨_, hnext, rfl, hm.diag, hm.mux, hm.regs, hm.block.concluded id _, hm.ses,
    fun hq => ⟨(hm.fifos hq).trans (.of_phy rfl), (hm.latches hq).trans (.of_phy rfl)⟩⟩

/-- Settles O17: the one read of Status0; then both detections, as strategies. -/
theorem levelsAndDetection : Obligations.LevelsAndDetection := by
  refine ⟨fun s hf => ?_, fun s debug hb hl hwf hmap => ?_, fun s code debug hcode hb hl hwf hmap => ?_⟩
  · obtain ⟨c, v, t, hrun, hmoved, henv, hphy, hv, hlevel⟩ := opCurrentLevel_reads hf
    have hd : Drives 1 [] [] s t := drives_of_tick hmoved henv hphy
    have settled : ∀ pin, s.phy.settle = 0 → regRead s.phy.regs 0x02 &&& 0x0C = muxBit pin →
        c = levelOf (envTick s).phy pin := fun pin h0 hmux =>
      hlevel _ (settledLevel_of_mux ((envTick_settle s).trans h0) (by rw [envTick_regs, hmux]))
    have hexec : exec .currentLevel s = .next (setResult (.level c) t) := congrArg (conclude _) hrun
    exact ⟨_, c, hexec, rfl, settled 1, settled 2, ⟨v, hmoved.trace, hv⟩, hd.regs, hd.block.concluded id _, hd.ses,
      hmoved.diag, fun hq => ⟨.of_phy (hphy.trans (by rw [envTick_quiet hq])), (hd.latches hq).trans (.of_phy rfl)⟩⟩
  · exact runOp_opDetect (detect := .sink debug) ⟨hb, hwf, hmap⟩ hl nofun
  · refine runOp_opDetect (detect := .source code debug) ⟨hb, hwf, hmap⟩ hl fun code' debug' h => ?_
    cases h
    exact hcode

/-! ## `FIND_CC` (R163) -/

/-- The map's row of Switches1 (R37): an `R/W` register whose bit 3 reads 0. -/
def switches1 : RegInfo := ⟨0x03, .readWrite, 0x20, 0x00, 0x08⟩

/-- The map's row of Control0 (R40): an `R/W` register with TX_FLUSH and TX_START. -/
def control0 : RegInfo := ⟨0x06, .readWrite, 0x24, 0x41, 0x00⟩

/-- The map's row of Control1 (R41): an `R/W` register with RX_FLUSH. -/
def control1 : RegInfo := ⟨0x07, .readWrite, 0x00, 0x04, 0x00⟩

/-- The transmitter bit of a pin (R37). -/
def txccBit (pin : Nat) : Byte := if pin = 1 then 0x01 else 0x02

/-- Switches1 with the transmitter on one pin, the configured revision, and its other bits kept (R164). -/
def switchOn (rev pin : Nat) (sw : Byte) : Byte := (sw &&& 0x9C#8) ||| (BitVec.ofNat 8 rev <<< 5) ||| txccBit pin

/-- The bits `ENABLE_TX_SWITCH` sets, field by field (R164). -/
theorem txSwitchBits_eq {cfg : Cfg} (hrev : cfg.rev ≤ 3) (pin : Nat) :
    txSwitchBits cfg pin = (BitVec.ofNat 8 cfg.rev <<< 5) ||| txccBit pin := by
  have all : ∀ r : Fin 4, BitVec.ofNat 8 (1 + r * 32) = (BitVec.ofNat 8 r <<< 5) ||| 0x01 ∧
      BitVec.ofNat 8 (2 + r * 32) = (BitVec.ofNat 8 r <<< 5) ||| 0x02 := by decide
  obtain ⟨h1, h2⟩ := all ⟨cfg.rev, Nat.lt_succ_of_le hrev⟩
  by_cases hp : pin = 1
  · rw [txSwitchBits, txccBit, if_pos hp, if_pos hp]; exact h1
  · rw [txSwitchBits, txccBit, if_neg hp, if_neg hp]; exact h2

/-- What Switches1 keeps of the byte `ENABLE_TX_SWITCH` writes: bit 3 was 0 and is not set (R37, R164). -/
theorem stored_switchOn {rev : Nat} (hrev : rev ≤ 3) (pin : Nat) {sw : Byte}
    (hsw : sw &&& (switches1.act ||| switches1.zero) = 0) :
    storedBits switches1 (switchOn rev pin sw) = switchOn rev pin sw := by
  have bits : ∀ r : Fin 4, (BitVec.ofNat 8 r <<< 5) &&& 0x08#8 = 0 := by decide
  have hbits : (BitVec.ofNat 8 rev <<< 5) &&& 0x08#8 = 0 := bits ⟨rev, Nat.lt_succ_of_le hrev⟩
  have hpin : txccBit pin &&& 0x08#8 = 0 := by rw [txccBit]; split <;> decide
  have hkept : sw &&& 0x9C#8 &&& 0x08#8 = 0 := by
    rw [BitVec.and_assoc]; exact hsw
  refine and_not_of_and_eq_zero ?_
  change switchOn rev pin sw &&& 0x08#8 = 0
  calc (sw &&& 0x9C#8 ||| BitVec.ofNat 8 rev <<< 5 ||| txccBit pin) &&& 0x08#8
    _ = (sw &&& 0x9C#8 &&& 0x08#8) ||| (BitVec.ofNat 8 rev <<< 5 &&& 0x08#8) ||| (txccBit pin &&& 0x08#8) := by
      ext i; simp [Bool.and_or_distrib_right]
    _ = 0 := by rw [hkept, hbits, hpin]; rfl

section Settling

variable {s : State}

/-- A read-modify-write that only adds `W/C` bits performs their actions and leaves every register as it reads (R63). -/
theorem rmw_act_drives (op : Byte) {addr act : Byte} {info : RegInfo} (hs : Responsive s)
    (hi : regInfo addr.toNat = some info) (ha : info.access = .readWrite) (h43 : addr ≠ 0x43) (h9 : addr ≠ 0x09)
    (hact : storedBits info act = 0) :
    ∃ t p, evalOp (rmw op addr 0x00 act) s = .ok () t ∧ Drives 2 [] [] s t ∧
      t.phy = written s.cfg info addr (regRead s.phy.regs addr.toNat ||| act) p := by
  have hw : (regRead s.phy.regs addr.toNat &&& ~~~0x00) ||| act = regRead s.phy.regs addr.toNat ||| act :=
    congrArg (· ||| act) BitVec.and_allOnes
  obtain ⟨t, p, hrun, hd, -, -, hphy⟩ := rmw_drives (changed := []) op hs hi ha h43 h9 hw
    fun _ => storedBits_or_act (hs.mapped.read hi) hact
  exact ⟨t, p, hrun, hd, hphy⟩

/-- `FLUSH_RX` empties the RX FIFO and leaves every register as it reads (R166). -/
theorem opFlushRx_drives (hs : Responsive s) :
    ∃ t, evalOp opFlushRx s = .ok () t ∧ Drives 2 [] [] s t ∧ t.phy.rx = [] := by
  obtain ⟨t, p, hrun, hd, hphy⟩ := rmw_act_drives 0x0F (addr := 0x07) (act := 0x04) (info := control1) hs rfl rfl
    (by decide) (by decide) rfl
  have hflush : (regRead s.phy.regs 0x07 ||| 0x04).getLsbD 2 = true := by simp
  exact ⟨t, hrun, hd, by rw [hphy]; exact if_pos hflush⟩

/-- `FLUSH_TX` empties the TX FIFO and leaves every register as it reads (R167). -/
theorem opFlushTx_drives (hs : Responsive s) :
    ∃ t, evalOp opFlushTx s = .ok () t ∧ Drives 2 [] [] s t ∧ t.phy.tx = [] := by
  obtain ⟨t, p, hrun, hd, hphy⟩ := rmw_act_drives 0x10 (addr := 0x06) (act := 0x40) (info := control0) hs rfl rfl
    (by decide) (by decide) rfl
  have hflush : (regRead s.phy.regs 0x06 ||| 0x40).getLsbD 6 = true := by simp
  exact ⟨t, hrun, hd, by rw [hphy]; exact if_pos hflush⟩

/-- `ENABLE_TX_SWITCH` puts the transmitter on its pin (R164). -/
theorem opEnableTxSwitch_drives {pin : Nat} (hs : Responsive s) (hrev : s.cfg.rev ≤ 3) (hpin : isPin pin = true) :
    ∃ t, evalOp (opEnableTxSwitch pin) s = .ok () t ∧ Drives 2 [0x03] [] s t ∧
      regRead t.phy.regs 0x03 = switchOn s.cfg.rev pin (regRead s.phy.regs 0x03) := by
  have hkept := hs.mapped.read (a := 0x03) (info := switches1) rfl
  have hw : (regRead s.phy.regs 0x03 &&& ~~~0x63) ||| txSwitchBits s.cfg pin =
      switchOn s.cfg.rev pin (regRead s.phy.regs 0x03) := by
    rw [txSwitchBits_eq hrev, switchOn, BitVec.or_assoc]; rfl
  obtain ⟨t, p, hrun, hd, hreg, -, -⟩ := rmw_drives (changed := [0x03]) (addr := 0x03) (info := switches1) 0x0E hs rfl
    rfl (by decide) (by decide) hw fun h => absurd (.head _) h
  refine ⟨t, ?_, hd, hreg.trans (stored_switchOn hrev pin hkept)⟩
  rw [opEnableTxSwitch, hpin, opRequire_true, evalOp_bind]
  exact hrun

/-- `RESET_PD` leaves what the schedule brings (R151, log 11). -/
theorem opResetPd_drives (hs : Responsive s) :
    ∃ t, evalOp opResetPd s = .ok () t ∧ Drives 1 [] [] s t ∧ t.phy = { (envTick s).phy with txGo := false } := by
  have hwrite : phyWrite 0x0C [0x02] (envTick s) =
      .done () { envTick s with phy := { (envTick s).phy with txGo := false } } := rfl
  obtain ⟨t, hrun, hm, hphy, henv⟩ := memWrite_completes 0x02 hs.bus.fate hwrite
  exact ⟨t, hrun, drives_of_tick hm henv hphy, hphy⟩

end Settling

/-- From `s` the transceiver settled onto a pin in `n + 1` transactions (R163): before the last one the RX FIFO was empty,
in the state `u`; after it, in `t`, the TX FIFO is, and transmitter and measure mux are on the pin. -/
structure Settles (n : Nat) (pin : Nat) (es : List Event) (s u t : State) : Prop where
  before : Drives n [0x02, 0x03] es s u
  last : Drives 1 [] [] u t
  emptied : u.phy.rx = []
  rx : t.phy.rx = (envTick u).phy.rx
  tx : t.phy.tx = []
  mux : regRead t.phy.regs 0x02 = muxOn pin (regRead s.phy.regs 0x02)
  switch : regRead t.phy.regs 0x03 = switchOn s.cfg.rev pin (regRead s.phy.regs 0x03)
  regs : u.phy.regs = t.phy.regs

/-- A measurement before belongs to it. -/
theorem Settles.after {m n pin other : Nat} {es fs : List Event} {r s t u : State} (h : Measures m other es r s)
    (k : Settles n pin fs s u t) : Settles (m + n) pin (es ++ fs) r u t where
  before := (h.mono (by decide)).trans k.before
  last := k.last
  emptied := k.emptied
  rx := k.rx
  tx := k.tx
  mux := by rw [k.mux, h.mux, muxOn_muxOn]
  switch := by rw [k.switch, h.block.cfg, h.regs 0x03 (by decide)]
  regs := k.regs

theorem Settles.all {n pin : Nat} {es : List Event} {s t u : State} (h : Settles n pin es s u t) :
    Drives (n + 1) [0x02, 0x03] es s t := by
  have hd := h.before.trans (h.last.mono (List.nil_subset _))
  rwa [List.append_nil] at hd

/-- The pin `FIND_CC` settles on is one (R158, R163). -/
theorem isPin_settlePin {cfg : Cfg} (hdefault : cfg.defaultPin ≠ .none) (pin : CCPin) :
    isPin (settlePin cfg pin) = true := by
  have all : ∀ p : CCPin, p ≠ .none → isPin (pinNumber p) = true := by
    intro p hp
    cases p with
    | none => exact absurd rfl hp
    | cc1 => rfl
    | cc2 => rfl
  refine all _ ?_
  split
  · exact hdefault
  · next h => exact h

/-- The pin stored in the session. -/
def storePin (pin : CCPin) (ses : Session) : Session := { ses with ccPin := pin }

/-- Settling onto a detected pin, its five read-modify-writes, the reset and the store (R163). -/
theorem opSettleOn_settles {s : State} (pin : CCPin) (hs : Responsive s) (hrev : s.cfg.rev ≤ 3)
    (hdefault : s.cfg.defaultPin ≠ .none) :
    ∃ u t, evalOp (opSettleOn pin) s = .ok pin (updSes (storePin pin) t) ∧
      Settles 10 (settlePin s.cfg pin) [] s u t := by
  have hpin := isPin_settlePin hdefault pin
  obtain ⟨a, ha, da, -⟩ := opFlushRx_drives hs
  have hsa := da.responsive hs
  obtain ⟨b, hb, db, hswitch⟩ := opEnableTxSwitch_drives hsa (da.block.cfg.symm ▸ hrev) hpin
  have hsb := db.responsive hsa
  obtain ⟨c, hc, mc, -⟩ := opMeasureCc_measures hsb hpin
  have hsc := mc.responsive hsb
  obtain ⟨d, hd, dd, htx⟩ := opFlushTx_drives hsc
  obtain ⟨u, hu, du, hrx⟩ := opFlushRx_drives (dd.responsive hsc)
  obtain ⟨t, ht, dt, hphy⟩ := opResetPd_drives (du.responsive (dd.responsive hsc))
  have flushed := (dd.trans du).trans dt
  refine ⟨u, t, ?_, ?_⟩
  · simp only [opSettleOn, evalOp_bind, evalOp_cfg, evalOp_seq, ha, hb, hc, hd, hu, ht, evalOp_modify, evalOp_pure]
    rfl
  · refine ⟨?_, dt, hrx, by rw [hphy], ?_, ?_, ?_, by rw [hphy, envTick_regs]⟩
    · have h1 := (da.mono (List.nil_subset [0x02, 0x03])).trans (db.mono (by decide))
      exact ((h1.trans (mc.mono (by decide))).trans (dd.mono (by decide))).trans (du.mono (by decide))
    · have hlen := (du.trans dt).tx
      rw [htx] at hlen
      exact List.length_eq_zero_iff.1 (Nat.le_zero.1 hlen)
    · rw [flushed.regs _ List.not_mem_nil, mc.mux, db.regs _ (by decide), da.regs _ List.not_mem_nil]
    · rw [flushed.regs _ List.not_mem_nil, mc.regs _ (by decide), hswitch, da.block.cfg, da.regs _ List.not_mem_nil]

/-- What a detection strategy, a configuration and the levels must be for `FIND_CC` (R157, R158, R169). -/
structure FindsPin (detect : Detect) (s : State) : Prop where
  responsive : Responsive s
  steady : LevelsSteady s
  rev : s.cfg.rev ≤ 3
  defaultPin : s.cfg.defaultPin ≠ .none
  code : ∀ code debug, detect = .source code debug → code.toNat ≤ 3

/-- `FIND_CC` detects, settles onto the pin and stores it (R163). -/
theorem opFindCc_settles {s : State} {detect : Detect} (h : FindsPin detect s) :
    ∃ u t, evalOp (opFindCc detect) s = .ok (StrategyPin detect s.phy.cc1 s.phy.cc2)
        (updSes (storePin (StrategyPin detect s.phy.cc1 s.phy.cc2)) t) ∧
      Settles 16 (settlePin s.cfg (StrategyPin detect s.phy.cc1 s.phy.cc2))
        (debugEvents (reportsCodes detect) s.phy) s u t := by
  obtain ⟨d, hdetect, hm⟩ := opDetect_measures h.responsive h.steady h.code
  have hcfg := hm.block.cfg
  obtain ⟨u, t, hsettle, hsettles⟩ := opSettleOn_settles (StrategyPin detect s.phy.cc1 s.phy.cc2)
    (hm.responsive h.responsive) (hcfg.symm ▸ h.rev) (hcfg.symm ▸ h.defaultPin)
  have hall := hsettles.after hm
  rw [List.append_nil, hcfg] at hall
  exact ⟨u, t, by rw [opFindCc, evalOp_bind, hdetect]; exact hsettle, hall⟩

/-- The pin settled on, where the strategy names it or names none and it is the default (R163). -/
theorem settlePin_eq {cfg : Cfg} {pin found : CCPin} (hpin : pin ≠ .none)
    (h : found = pin ∨ (found = .none ∧ cfg.defaultPin = pin)) : settlePin cfg found = pinNumber pin := by
  obtain rfl | ⟨rfl, rfl⟩ := h
  · rw [settlePin, if_neg hpin]
  · rfl

/-- Settles O18: the run of `FIND_CC`, and where its pin is. -/
theorem findCcSettlesOntoThePin : Obligations.FindCcSettlesOntoThePin := by
  intro s detect hb hl hwf hmap hrev hdefault hcode
  obtain ⟨u, t, hrun, h⟩ := opFindCc_settles ⟨⟨hb, hwf, hmap⟩, hl, hrev, hdefault, hcode⟩
  generalize StrategyPin detect s.phy.cc1 s.phy.cc2 = found at hrun h ⊢
  have hexec : exec (.findCc detect) s = .next (setResult (.pin found) (updSes (storePin found) t)) :=
    congrArg (conclude _) hrun
  have on : ∀ pin : CCPin, pin ≠ .none → (found = pin ∨ (found = .none ∧ s.cfg.defaultPin = pin)) →
      regRead t.phy.regs 0x02 = muxOn (pinNumber pin) (regRead s.phy.regs 0x02) ∧
      regRead t.phy.regs 0x03 = switchOn s.cfg.rev (pinNumber pin) (regRead s.phy.regs 0x03) := by
    intro pin hpin hfound
    rw [← settlePin_eq hpin hfound]
    exact ⟨h.mux, h.switch⟩
  refine ⟨_, hexec, congrArg (storePin found) h.all.ses, rfl, on .cc1 (by decide), on .cc2 (by decide), h.all.regs,
    h.all.block.concluded _ _, h.tx, h.all.env,
    ⟨u, h.before.block.cfg, h.before.env, h.emptied, h.regs, h.rx⟩,
    fun hq => ⟨?_, (h.all.latches hq).trans (.of_phy rfl)⟩⟩
  exact h.rx.trans (by rw [envTick_quiet (h.before.quiet hq), h.emptied])

/-! ## `INT_STEP` (R286 to R288) -/

/-- A completed one-byte read, nothing else happening. -/
theorem readReg_quiet_of_phyRead {op addr b : Byte} {s t : State} (henv : s.env = [])
    (hp : phyRead addr 1 s = .done [b] t) : evalOp (readReg op addr) s = .ok b (logPrim (.rd addr [b]) t) := by
  simp only [readReg, evalOp_bind, evalOp_memRead, busRead, (BusCompletes.of_quiet henv).fate, envTick_quiet henv, hp,
    answered, answeredBytes, evalOp_pure, List.headD_cons]

/-- Reading Interrupt clears it (R63). -/
theorem phyRead_intI (s : State) :
    phyRead 0x42 1 s = .done [s.phy.intI] { s with phy := { s.phy with intI := 0 } } := rfl

/-- The state after `READ_INT` (R172): the latches are clear. -/
def intRead (s : State) : State :=
  { s with
    phy := { s.phy with intA := 0, intB := 0, intI := 0 }
    trace := s.trace ++ [.rd 0x3E [s.phy.intA], .rd 0x3F [s.phy.intB], .rd 0x42 [s.phy.intI]] }

/-- `READ_INT`, nothing else happening (R172). -/
theorem opReadInt_quiet {s : State} (henv : s.env = []) :
    evalOp opReadInt s = .ok (s.phy.intA, s.phy.intB, s.phy.intI) (intRead s) := by
  have ha := readReg_quiet_of_phyRead (op := 0x13) henv (phyRead_intA s)
  generalize hu : logPrim (.rd 0x3E [s.phy.intA]) { s with phy := { s.phy with intA := 0 } } = u at ha
  have hb := readReg_quiet_of_phyRead (op := 0x13) (s := u) (by rw [← hu]; exact henv) (phyRead_intB u)
  generalize hv : logPrim (.rd 0x3F [u.phy.intB]) { u with phy := { u.phy with intB := 0 } } = v at hb
  have hi := readReg_quiet_of_phyRead (op := 0x13) (s := v) (by rw [← hv, ← hu]; exact henv) (phyRead_intI v)
  simp only [opReadInt, evalOp_bind, ha, hb, hi, evalOp_pure]
  subst hv hu
  simp [intRead, logPrim]

/-- Events emitted one after another. -/
def emitAll (es : List Event) (s : State) : State :=
  { s with diag := s.diag ++ es, trace := s.trace ++ es.map .emit }

theorem emitAll_nil (s : State) : emitAll [] s = s := by simp [emitAll]

/-- An event for each element of a list. -/
theorem evalOp_forEach_emit {α : Type} (f : α → Event) (l : List α) (s : State) :
    evalOp (opForEach (fun a => emit (f a)) l) s = .ok () (emitAll (l.map f) s) := by
  induction l generalizing s with
  | nil => rw [List.map_nil, emitAll_nil]; rfl
  | cons a l ih =>
    simp only [opForEach, evalOp_seq, evalOp_emit, ih]
    simp [emitAll, emitEvent, logPrim]

/-- The report of an `INT_STEP`: the three bytes, then each set condition (R286, R287). -/
def intReport (p : Phy) : List Event :=
  .interrupts p.intA p.intB p.intI :: (SetConditions p.intI).map .intCondition

/-- CompChange is among the conditions exactly where bit 5 is set (R52). -/
theorem contains_compChange_eq (i : Byte) : (SetConditions i).contains .compChange = i.getLsbD 5 := by
  rw [← decodeInt_eq, Bool.eq_iff_iff, List.contains_iff_mem, decodeInt, List.mem_map]
  constructor
  · rintro ⟨⟨k, c⟩, hmem, rfl⟩
    obtain ⟨hmem, hbit⟩ := List.mem_filter.1 hmem
    have only : ∀ x ∈ intConditions, x.2 = .compChange → x.1 = 5 := by decide
    rwa [only _ hmem rfl] at hbit
  · exact fun h => ⟨(5, .compChange), List.mem_filter.2 ⟨by decide, h⟩, rfl⟩

/-- The state in which the latches are read and reported. -/
def intReported (s : State) : State := emitAll (intReport s.phy) (intRead s)

theorem keepsBlock_intReported (s : State) : KeepsBlock s (intReported s) :=
  ⟨rfl, rfl, rfl, rfl, rfl, rfl, rfl, rfl, rfl, rfl⟩

/-- `INT_STEP`, nothing else happening: everything is read and reported, and CompChange alone leads on (R286, R287). -/
theorem opIntStep_quiet {s : State} (henv : s.env = []) :
    evalOp opIntStep s = evalOp (if s.phy.intI.getLsbD 5 then opDetachCheck else opPure true)
      (intReported s) := by
  have hreport : emitAll ((SetConditions s.phy.intI).map .intCondition)
      (emitEvent (.interrupts s.phy.intA s.phy.intB s.phy.intI) (intRead s)) =
        intReported s := by
    simp [intReported, emitAll, emitEvent, logPrim, intReport]
  simp only [opIntStep, evalOp_bind, opReadInt_quiet henv, evalOp_seq, evalOp_emit, evalOp_forEach_emit, decodeInt_eq,
    hreport, contains_compChange_eq]

/-- The strategy of the configured role (R288). -/
theorem roleDetect_eq (cfg : Cfg) : roleDetect cfg cfg.role =
    if cfg.role = .sink then .sink false else .source (BitVec.ofNat 8 cfg.hostCurrentCode) false := by
  cases cfg.role <;> rfl

/-- What the configuration check says of `FIND_CC`'s parameters (R381). -/
theorem checkConfig_findCc {c : Cfg} (h : checkConfig c = true) :
    c.rev ≤ 3 ∧ c.defaultPin ≠ .none ∧ c.hostCurrentCode ≤ 3 := by
  simp only [checkConfig, Bool.and_eq_true, decide_eq_true_eq] at h
  obtain ⟨⟨⟨hrev, hdefault, hcode, -⟩, -⟩, -⟩ := h
  exact ⟨hrev, hdefault, hcode⟩

/-- A checked configuration's own detection can be settled onto (R288, R381). -/
theorem findsPin_roleDetect {s : State} (hs : Responsive s) (hl : LevelsSteady s) (hcfg : checkConfig s.cfg = true) :
    FindsPin (roleDetect s.cfg s.cfg.role) s := by
  obtain ⟨hrev, hdefault, hcode⟩ := checkConfig_findCc hcfg
  refine ⟨hs, hl, hrev, hdefault, fun code debug h => ?_⟩
  cases hrole : s.cfg.role with
  | sink => rw [hrole] at h; cases h
  | source =>
    rw [hrole] at h
    cases h
    exact Nat.le_trans (Nat.mod_le _ _) hcode

/-- The events of a detach check that found a pin or none (R288). -/
def detachEvents (pin : CCPin) : List Event := if pin = .none then [.detached] else []

/-- `DETACH_CHECK` re-detects, settles, stores the pin and says whether there is one (R288). -/
theorem opDetachCheck_settles {s : State} (hs : Responsive s) (hl : LevelsSteady s) (hcfg : checkConfig s.cfg = true)
    {pin : CCPin} (hpin : pin = StrategyPin (roleDetect s.cfg s.cfg.role) s.phy.cc1 s.phy.cc2) :
    ∃ u t, evalOp opDetachCheck s = .ok (decide (pin ≠ .none))
        (emitAll (detachEvents pin) (updSes (storePin pin) t)) ∧ Settles 16 (settlePin s.cfg pin) [] s u t := by
  obtain ⟨u, t, hrun, h⟩ := opFindCc_settles (findsPin_roleDetect hs hl hcfg)
  have hsilent : reportsCodes (roleDetect s.cfg s.cfg.role) = false := by cases s.cfg.role <;> rfl
  rw [hsilent, ← hpin] at h
  rw [← hpin] at hrun
  refine ⟨u, t, ?_, h⟩
  simp only [opDetachCheck, evalOp_bind, evalOp_cfg, hrun]
  by_cases hnone : pin = .none
  · rw [if_pos hnone, detachEvents, if_pos hnone, decide_eq_false fun hne => hne hnone]; rfl
  · rw [if_neg hnone, detachEvents, if_neg hnone, decide_eq_true hnone, emitAll_nil]; rfl

/-- Settles O44: the report, then nothing or the detach check. -/
theorem intStepReportsThenDetects : Obligations.IntStepReportsThenDetects := by
  refine ⟨fun s henv hbit => ?_, fun s henv hbit hwf hmap hcfg => ?_⟩
  · have hrun : evalOp opIntStep s = .ok true (intReported s) := by rw [opIntStep_quiet henv, hbit]; rfl
    have hexec : exec .intStep s = .next _ := congrArg (conclude _) hrun
    have hpin : intPin (intRead s).phy = false := by simp [intPin, pendingUnmasked, intRead]
    exact ⟨_, hexec, rfl, rfl, rfl, rfl, rfl, hpin, fun _ _ => rfl, ⟨rfl, rfl⟩,
      (keepsBlock_intReported s).concluded id _, rfl⟩
  · have hquiet : (intReported s).env = [] := henv
    have hsteady : LevelsSteady (intReported s) := fun e he => by
      rw [hquiet] at he; exact absurd he List.not_mem_nil
    obtain ⟨u, t, hcheck, h⟩ := opDetachCheck_settles ⟨.of_quiet hquiet, hwf, hmap⟩ hsteady hcfg rfl
    generalize hp : StrategyPin _ _ _ = pin at hcheck h
    have hall := h.all
    have hlatches := hall.latches hquiet
    have hexec : exec .intStep s = .next (setResult (.attached (decide (pin ≠ .none)))
        (emitAll (detachEvents pin) (updSes (storePin pin) t))) := by
      change conclude Value.attached (evalOp opIntStep s) = _
      rw [opIntStep_quiet henv, hbit, if_pos rfl, hcheck, conclude_ok]
    have hdiag : t.diag ++ detachEvents pin = s.diag ++ (intReport s.phy ++ detachEvents pin) := by
      rw [hall.diag, List.append_nil]; exact List.append_assoc _ _ _
    refine ⟨_, pin, hexec, by rw [← roleDetect_eq]; exact hp.symm, congrArg (storePin pin) hall.ses, rfl, hdiag, ?_,
      h.tx, hlatches.intA, hlatches.intB, hlatches.intI, hall.regs,
      ((keepsBlock_intReported s).trans hall.block).trans ⟨rfl, rfl, rfl, rfl, rfl, rfl, rfl, rfl, rfl, rfl⟩⟩
    exact h.rx.trans (by rw [envTick_quiet (h.before.quiet hquiet), h.emptied])

end Sys2Proof.Machine
end

section
/-! Proofs of the statements of `41_frame_codec.md`, first part: Fixed PDOs and the type tables (O29, O31). -/

namespace Sys2Proof.Machine

/-! ## Fixed PDOs (R118, R212, R213) -/

/-- The operands in range (R213). -/
theorem validFixedPdo_iff {v c p f : Nat} : validFixedPdo v c p f = true ↔
    v % 50 = 0 ∧ v ≤ 51150 ∧ c % 10 = 0 ∧ c ≤ 10230 ∧ p ≤ 3 ∧ f ≤ 255 := decide_eq_true_iff

/-- `BUILD_FIXED_PDO` of operands in range (R213). -/
theorem buildFixedPdo_ok {v c p f : Nat} (h : validFixedPdo v c p f = true) :
    buildFixedPdo v c p f = .ok (fixedPdoWord v c p f) := if_pos h

/-- `BUILD_FIXED_PDO` of an operand out of its range (R213). -/
theorem buildFixedPdo_error {v c p f : Nat} (h : ¬ validFixedPdo v c p f = true) :
    buildFixedPdo v c p f = .error (.caller .badPdoField) := if_neg h

/-- `PARSE_PDO` of a data object whose type bits are 00 (R118). -/
theorem parsePdo_fixed {w : Word32} (h : fld w 31 30 = 0) : parsePdo w = .fixed (fixedPdoOf w) := by
  simp only [parsePdo, h]

/-- What is built of operands in range has type bits 00, and their fields are the operands (R213, R215). -/
theorem parsePdo_fixedPdoWord {v c p f : Nat} (h : validFixedPdo v c p f = true) :
    parsePdo (fixedPdoWord v c p f) = .fixed ⟨v, c, p, f⟩ := by
  obtain ⟨hv50, hv, hc10, hc, hp, hf⟩ := validFixedPdo_iff.1 h
  have hw : (fixedPdoWord v c p f).toNat = f * 2 ^ 22 + p * 2 ^ 20 + v / 50 * 2 ^ 10 + c / 10 := by
    rw [fixedPdoWord, BitVec.toNat_ofNat]; omega
  have htype : fld (fixedPdoWord v c p f) 31 30 = 0 := by rw [fld]; omega
  have h1 : fld (fixedPdoWord v c p f) 19 10 * 50 = v := by rw [fld]; omega
  have h2 : fld (fixedPdoWord v c p f) 9 0 * 10 = c := by rw [fld]; omega
  have h3 : fld (fixedPdoWord v c p f) 21 20 = p := by rw [fld]; omega
  have h4 : fld (fixedPdoWord v c p f) 29 22 = f := by rw [fld]; omega
  rw [parsePdo_fixed htype, fixedPdoOf, h1, h2, h3, h4]

/-- Every field of a data object is in its range, so building accepts what parsing answers (R118, R213). -/
theorem validFixedPdo_fixedPdoOf (w : Word32) :
    validFixedPdo (fixedPdoOf w).voltage_mV (fixedPdoOf w).maxCurrent_mA (fixedPdoOf w).peakCurrentCode
      (fixedPdoOf w).extraFlags = true := by
  simp only [validFixedPdo_iff, fixedPdoOf, fld]
  omega

/-- The fields of a data object whose type bits are 00 build that object (R215). -/
theorem fixedPdoWord_fixedPdoOf {w : Word32} (h : fld w 31 30 = 0) :
    fixedPdoWord (fixedPdoOf w).voltage_mV (fixedPdoOf w).maxCurrent_mA (fixedPdoOf w).peakCurrentCode
      (fixedPdoOf w).extraFlags = w := by
  have hw := w.isLt
  refine BitVec.eq_of_toNat_eq ?_
  rw [fixedPdoWord, BitVec.toNat_ofNat]
  simp only [fixedPdoOf, fld] at h ⊢
  omega

/-- Settles O29: the two inverses, and the operations on them. -/
theorem fixedPdoRoundTrips : Obligations.FixedPdoRoundTrips := by
  refine ⟨⟨fun v c p f hv50 hv hc10 hc hp hf => ?_, fun w hw => ?_⟩, fun s v c p f => ⟨fun h => ?_, fun h => ?_⟩⟩
  · have hvalid := validFixedPdo_iff.2 ⟨hv50, hv, hc10, hc, hp, hf⟩
    exact ⟨_, buildFixedPdo_ok hvalid, parsePdo_fixedPdoWord hvalid⟩
  · have htype : fld w 31 30 = 0 := by rw [fld_eq_extractLsb', hw]; rfl
    refine ⟨_, parsePdo_fixed htype, ?_⟩
    rw [buildFixedPdo_ok (validFixedPdo_fixedPdoOf w), fixedPdoWord_fixedPdoOf htype]
  · have hvalid := validFixedPdo_iff.2 h
    obtain ⟨b0, b1, b2, b3, hb, hword⟩ := exists_wordBytes (fixedPdoWord v.toNat c.toNat p.toNat f.toNat)
    refine ⟨b0, b1, b2, b3, ?_, ?_⟩
    · rw [← hb]
      exact runOp_codec_ok (buildFixedPdo_ok hvalid) s
    · rw [hword, ← parsePdo_fixedPdoWord hvalid]
      exact runOp_pure .pdo _ s
  · exact runOp_codec_error (buildFixedPdo_error (mt validFixedPdo_iff.1 h)) s

/-! ## The type tables (R114 to R116, R222) -/

/-- Beyond its table a type is unknown (R116). -/
theorem typeLookup_unknown {cls : MsgClass} {t : BitVec 5} (h : (typeTable cls).length ≤ t.toNat) :
    typeLookup cls t = .unknown t := by
  rw [typeLookup, List.getElem?_eq_none h, Option.getD_none]

/-- Settles O31: beyond the tables nothing is found, and the tables are the lists. -/
theorem typeLookupFollowsTheTables : Obligations.TypeLookupFollowsTheTables := by
  refine ⟨fun s t => ⟨fun h => ?_, fun h => ?_, runOp_pure .name _ s, runOp_pure .name _ s⟩, rfl, rfl⟩
  · rw [← typeLookup_unknown (cls := .control) h]
    exact runOp_pure .name _ s
  · rw [← typeLookup_unknown (cls := .data) h]
    exact runOp_pure .name _ s

end Sys2Proof.Machine
end

section
/-! Proofs of the statements of `41_frame_codec.md`, second part: the reactions to a message with an empty schedule,
each run to its end (O46). -/

namespace Sys2Proof.Machine

/-- Where the first operation completes, a sequence goes on with the second (R353). -/
theorem evalOp_seq_ok {α β : Type} {m : Op α} {k : Op β} {a : α} {s t : State} (h : evalOp m s = .ok a t) :
    evalOp (opSeq m k) s = evalOp k t := by
  rw [evalOp_seq, h]

/-! ## Sending a command leaves the block alone (R252) -/

@[simp] theorem commandSent_ctl (p d : List Byte) (s : State) : (commandSent p d s).ctl = s.ctl := rfl
@[simp] theorem commandSent_lastError (p d : List Byte) (s : State) :
    (commandSent p d s).lastError = s.lastError := rfl
@[simp] theorem commandSent_scan (p d : List Byte) (s : State) : (commandSent p d s).scan = s.scan := rfl
@[simp] theorem commandSent_diag (p d : List Byte) (s : State) : (commandSent p d s).diag = s.diag := rfl
@[simp] theorem commandSent_selects (p d : List Byte) (s : State) : (commandSent p d s).selects = s.selects := rfl
@[simp] theorem commandSent_validates (p d : List Byte) (s : State) :
    (commandSent p d s).validates = s.validates := rfl

/-! ## What `Sends` looks at -/

/-- Two states alike in everything `Sends` looks at. -/
structure SameSending (s t : State) : Prop where
  cfg : t.cfg = s.cfg := by rfl
  ctl : t.ctl = s.ctl := by rfl
  lastError : t.lastError = s.lastError := by rfl
  phy : t.phy = s.phy := by rfl
  msgId : t.ses.msgId = s.ses.msgId := by rfl
  sentLog : t.ses.sentLog = s.ses.sentLog := by rfl
  ccPin : t.ses.ccPin = s.ses.ccPin := by rfl
  advIters : t.ses.advIters = s.ses.advIters := by rfl
  advRetries : t.ses.advRetries = s.ses.advRetries := by rfl

/-- The frame of a command depends on the configuration alone. -/
theorem commandFrame_congr {s t : State} (h : t.cfg = s.cfg) (id : BitVec 3) (type : BitVec 5) (d : List Byte) :
    CommandFrame t id type d = CommandFrame s id type d := by
  simp only [CommandFrame, RoleBits, h]

/-- `Sends` between two states holds between any two alike. -/
theorem sends_congr {s s' t t' : State} {type : BitVec 5} {d : List Byte} (h : Sends s t type d)
    (hs : SameSending s s') (ht : SameSending t t') : Sends s' t' type d where
  id := by rw [ht.msgId, hs.msgId, h.id]
  tx := by rw [ht.phy, hs.phy, hs.msgId, h.tx, commandFrame_congr hs.cfg]
  log := by rw [ht.sentLog, hs.sentLog, hs.msgId, h.log]
  rx := by rw [ht.phy, hs.phy, h.rx]
  regs a ha := by rw [ht.phy, hs.phy, h.regs a ha]
  latches := (KeepsLatches.of_phy hs.phy.symm).trans (h.latches.trans (.of_phy ht.phy))
  ctl := by rw [ht.ctl, hs.ctl, h.ctl]
  lastError := by rw [ht.lastError, hs.lastError, h.lastError]
  cfg := by rw [ht.cfg, hs.cfg, h.cfg]
  pin := by rw [ht.ccPin, hs.ccPin, h.pin]
  counters := by rw [ht.advIters, ht.advRetries, hs.advIters, hs.advRetries]; exact h.counters

/-- A command without data objects takes eleven bytes of the TX FIFO (R101, R104). -/
theorem sends_tx_length {s t : State} {type : BitVec 5} (h : Sends s t type []) :
    t.phy.tx.length = s.phy.tx.length + 11 := by
  rw [h.tx, List.length_append]; rfl

/-! ## Control messages -/

/-- A Control message sent by its name, nothing else happening (R252). -/
theorem opSendControl_sends {s : State} {name : MsgName} {type : BitVec 5} (henv : s.env = [])
    (hcfg : checkConfig s.cfg = true) (hroom : TxRoom 11 s) (hindex : commandIndex .control name = some type.toNat) :
    ∃ p, evalOp (opSendCommand name []) s = .ok () (commandSent p [] s) ∧ Sends s (commandSent p [] s) type [] :=
  opSendCommand_sends henv hcfg (k := 0) rfl (by decide) hroom hindex

/-! ## The sink's reactions (R290 to R293) -/

/-- The sink's choice in the session (R291). -/
def storeChoice (index current : Nat) (ses : Session) : Session :=
  { ses with selectedProfile := some (.sink index current), sinkState := .requestSent }

/-- The state after the host chose from a list (R13). -/
def chosen (pdos : List Pdo) (more : List (Option (Nat × Nat))) (s : State) : State :=
  logPrim (.ask (.selectPdo pdos)) { s with selects := more }

/-- The state after the request of a choice was sent as payload `p` (R291). -/
def requestSent (p : List Byte) (pdos : List Pdo) (more : List (Option (Nat × Nat))) (index current : Nat)
    (s : State) : State :=
  updSes (storeChoice index current) (commandSent p (wordBytes (requestWord index current)) (chosen pdos more s))

/-- `SINK_SEND_REQUEST` of an answer that can be encoded: the host is asked, the Request sent, the choice stored
(R291). -/
theorem opSinkSendRequest_sends {s : State} {pdos : List Pdo} {index current : Nat} {more : List (Option (Nat × Nat))}
    (henv : s.env = []) (hcfg : checkConfig s.cfg = true) (hroom : TxRoom 15 s)
    (hselects : s.selects = some (index, current) :: more) (hlen : pdos.length ≤ 7) (hindex : index < pdos.length)
    (hmod : current % 10 = 0) (hmax : current ≤ 10230) :
    ∃ p, evalOp (opSinkSendRequest pdos) s = .ok () (requestSent p pdos more index current s) ∧
      Sends s (requestSent p pdos more index current s) 2 (wordBytes (requestWord index current)) := by
  have hencodable : index ≤ 6 ∧ current % 10 = 0 ∧ current ≤ 10230 := ⟨by omega, hmod, hmax⟩
  have hcheck : (decide (index < pdos.length) && encodableRequest index current) = true := by
    rw [decide_eq_true hindex, encodableRequest, decide_eq_true hencodable, Bool.and_true]
  obtain ⟨p, hsend, hsends⟩ := opSendCommand_sends (s := chosen pdos more s) (name := .request)
    (d := wordBytes (requestWord index current)) (type := 2) (k := 1) henv hcfg rfl (by decide) hroom rfl
  refine ⟨p, ?_, sends_congr hsends {} {}⟩
  rw [chosen] at hsend
  simp only [opSinkSendRequest, evalOp_bind, evalOp_askSelect, hostSelects_queued hselects, hcheck, opRequire_true,
    buildRequest_ok hencodable, opCodec_ok, evalOp_pure, evalOp_seq, hsend, evalOp_modify]
  rfl

/-- Settles O46: both operations run the request on the list, whose end state is written out. -/
theorem sinkRequestsTheChosenPdo : Obligations.SinkRequestsTheChosenPdo := by
  intro s b w ws index current more i henv hcfg hroom hlen hselects hindex hmod hmax hi
  have hexec : exec i s = runUnit (opSinkSendRequest (parsePdoList (w :: ws))) s := by
    obtain rfl | rfl := hi <;> rfl
  have hpdos : (parsePdoList (w :: ws)).length = (w :: ws).length := List.length_map _
  have hcount : (w :: ws).length ≤ 7 := Nat.succ_le_succ hlen
  obtain ⟨p, hrun, hsends⟩ := opSinkSendRequest_sends henv hcfg hroom hselects (hpdos ▸ hcount) (hpdos ▸ hindex)
    hmod hmax
  have htrace : (requestSent p (parsePdoList (w :: ws)) more index current s).trace.drop s.trace.length =
      .ask (.selectPdo (parsePdoList (w :: ws))) ::
        [.wr 0x43 (sopTokens p.length), .wr 0x43 p, .wr 0x43 eopTokens] := by
    simp [requestSent, commandSent, chosen]
  rw [hexec, runUnit, runOp, hrun, conclude_ok]
  refine ⟨_, requestWord index current, rfl, sends_setResult hsends _,
    parsedRequest_requestWord (by omega) hmod hmax, rfl, rfl, rfl, rfl, rfl, rfl, ?_, ?_⟩
  · rw [setResult_trace, htrace]
    simp
  · rw [setResult_trace, htrace, parsePdoList, funext parsePdo_eq]
    rfl

/-- A VDM request of an answered command is acknowledged with its payload (R293). -/
theorem opVdmRespond_sends {s : State} {command : BitVec 5} {payload : List Byte} (v : VdmBits) (henv : s.env = [])
    (hcfg : checkConfig s.cfg = true) (hroom : TxRoom 39 s) (hanswer : AnswerTo s command = some payload) :
    ∃ p, evalOp (opVdmRespond (.structured v.svid v.version v.objectPosition 0 command)) s =
        .ok () (commandSent p (wordBytes (ackWord v command) ++ payload) s) ∧
      Sends s (commandSent p (wordBytes (ackWord v command) ++ payload) s) 15
        (wordBytes (ackWord v command) ++ payload) := by
  obtain ⟨hmod, hmax⟩ := answerTo_fits hcfg hanswer
  have hlen : (wordBytes (ackWord v command) ++ payload).length = 4 * (payload.length / 4 + 1) := by
    have hword : (wordBytes (ackWord v command)).length = 4 := rfl
    rw [List.length_append, hword]; omega
  rw [opVdmRespond_request v hcfg hanswer]
  exact opSendCommand_sends henv hcfg hlen (by omega) (hroom.of_le (by omega)) (by rw [hlen]; rfl)

/-! ## The source's reactions (R301 to R305) -/

/-- The state after a rejection (R305). -/
def rejected (pos : Nat) (s : State) : State :=
  updSes (fun ses => { ses with selectedProfile := none, sourceState := .advertisementSent })
    (emitEvent (.policyRejected pos) (logPrim (.ask .powerOff) s))

/-- `SOURCE_REJECT` (R305). -/
@[simp] theorem evalOp_sourceReject (pos : Nat) (s : State) :
    evalOp (opSourceReject pos) s = .ok () (rejected pos s) := rfl

/-- The state at the start of handling a Request (R301). -/
def validating (s : State) : State := updSes (fun ses => { ses with sourceState := .validateProfile }) s

/-- The state after the host validated a profile (R13). -/
def validated (profile : FixedPdo) (m : Message) (more : List Bool) (s : State) : State :=
  logPrim (.ask (.validateProfile profile m)) { s with validates := more }

/-- A queued answer is taken, and the exchange recorded (R13). -/
theorem hostValidates_queued {s : State} {yes : Bool} {more : List Bool} (h : s.validates = yes :: more)
    (profile : FixedPdo) (m : Message) : hostValidates profile m s = (yes, validated profile m more s) := by
  simp only [hostValidates, h, validated]

/-- The advertised profile at a position of the list (R302). -/
theorem profileAt_some {cfg : Cfg} {pos : Nat} {profile : FixedPdo} (hpos : 0 < pos)
    (h : cfg.advertisedPdos[pos - 1]? = some profile) : profileAt cfg pos = some profile := by
  rw [profileAt, if_neg (Nat.ne_of_gt hpos), h]

/-- There is no profile at position 0 and beyond the list (R302). -/
theorem profileAt_none {cfg : Cfg} {pos : Nat} (h : pos = 0 ∨ cfg.advertisedPdos.length < pos) :
    profileAt cfg pos = none := by
  rw [profileAt]
  split
  · rfl
  · exact List.getElem?_eq_none (by omega)

section Request

variable {s : State} {m : Message} {pos : Nat} {profile : FixedPdo} {more : List Bool}

/-- A Request for no advertised profile is rejected without asking the host (R302). -/
theorem opSourceOnRequest_unknown (hpos : (parseRequest (m.dataObjects.headD 0)).objectPosition = pos)
    (h : profileAt s.cfg pos = none) :
    evalOp (opSourceOnRequest m) s = .ok () (rejected pos (validating s)) := by
  simp only [opSourceOnRequest, evalOp_seq, evalOp_modify, evalOp_bind, evalOp_cfg, updSes_cfg, hpos, h,
    evalOp_sourceReject, validating]

/-- A Request for an advertised profile goes on as the host answers (R301). -/
theorem opSourceOnRequest_judged {yes : Bool} (hpos : (parseRequest (m.dataObjects.headD 0)).objectPosition = pos)
    (h : profileAt s.cfg pos = some profile) (hanswer : s.validates = yes :: more) :
    evalOp (opSourceOnRequest m) s = evalOp
      (if yes then opSeq (opSourceAccept (pos - 1) profile) (opSourcePsRdy profile m) else opSourceReject pos)
      (validated profile m more (validating s)) := by
  have hask := hostValidates_queued (s := validating s) hanswer profile m
  rw [validating] at hask
  simp only [opSourceOnRequest, evalOp_seq, evalOp_modify, evalOp_bind, evalOp_cfg, updSes_cfg, hpos, h,
    evalOp_askValidate, hask, validating]

/-- A Request the host turns down is rejected (R301, R305). -/
theorem opSourceOnRequest_refused (hpos : (parseRequest (m.dataObjects.headD 0)).objectPosition = pos)
    (h : profileAt s.cfg pos = some profile) (hno : s.validates = false :: more) :
    evalOp (opSourceOnRequest m) s = .ok () (rejected pos (validated profile m more (validating s))) :=
  opSourceOnRequest_judged hpos h hno

/-- A Request the host accepts gets Accept and then PS_RDY (R301, R303, R304). -/
theorem opSourceOnRequest_granted (hpos : (parseRequest (m.dataObjects.headD 0)).objectPosition = pos)
    (h : profileAt s.cfg pos = some profile) (hyes : s.validates = true :: more) :
    evalOp (opSourceOnRequest m) s = evalOp (opSeq (opSourceAccept (pos - 1) profile) (opSourcePsRdy profile m))
      (validated profile m more (validating s)) :=
  opSourceOnRequest_judged hpos h hyes

end Request

/-- What `SOURCE_ACCEPT` records (R303). -/
def recordAccept (index : Nat) (profile : FixedPdo) (ses : Session) : Session :=
  { ses with profileAccepted := true, selectedProfile := some (.source index profile), sourceState := .accepted }

/-- `SOURCE_ACCEPT`: Accept is sent, the profile recorded (R303). -/
theorem opSourceAccept_sends {s : State} (index : Nat) (profile : FixedPdo) (henv : s.env = [])
    (hcfg : checkConfig s.cfg = true) (hroom : TxRoom 11 s) :
    ∃ p, evalOp (opSourceAccept index profile) s =
        .ok () (updSes (recordAccept index profile) (commandSent p [] s)) ∧ Sends s (commandSent p [] s) 3 [] := by
  obtain ⟨p, hsend, hsends⟩ := opSendControl_sends henv hcfg hroom (name := .accept) (type := 3) rfl
  exact ⟨p, by simp only [opSourceAccept, evalOp_seq, hsend, evalOp_modify]; rfl, hsends⟩

/-- The state once the host was asked to switch and the supply settled (R304). -/
def switched (profile : FixedPdo) (m : Message) (s : State) : State :=
  logPrim (.wait s.cfg.psRdySettle) (passTime s.cfg.psRdySettle (logPrim (.ask (.switchToProfile profile m)) s))

/-- `SOURCE_PS_RDY`: the host switches, the supply settles, PS_RDY is sent (R304). -/
theorem opSourcePsRdy_sends {s : State} (profile : FixedPdo) (m : Message) (henv : s.env = [])
    (hcfg : checkConfig s.cfg = true) (hroom : TxRoom 11 s) :
    ∃ p, evalOp (opSourcePsRdy profile m) s = .ok ()
        (updSes (fun ses => { ses with sourceState := .powered }) (commandSent p [] (switched profile m s))) ∧
      Sends (switched profile m s) (commandSent p [] (switched profile m s)) 6 [] := by
  obtain ⟨p, hsend, hsends⟩ := opSendControl_sends (s := switched profile m s) henv hcfg hroom (name := .psRdy)
    (type := 6) rfl
  rw [switched] at hsend
  refine ⟨p, ?_, hsends⟩
  simp only [opSourcePsRdy, evalOp_seq, evalOp_tell, evalOp_bind, evalOp_cfg, logPrim_cfg, evalOp_wait, hsend,
    evalOp_modify, switched]

/-- What granting a Request for a profile leaves (R301, R303, R304): two commands in the TX FIFO, the profile recorded,
the source powered. -/
structure Grants (s t : State) (index : Nat) (profile : FixedPdo) : Prop where
  sourceState : t.ses.sourceState = .powered
  accepted : t.ses.profileAccepted = true
  selected : t.ses.selectedProfile = some (.source index profile)
  msgId : t.ses.msgId = some (nextId (some (nextId s.ses.msgId)))
  tx : t.phy.tx = s.phy.tx ++ CommandFrame s (nextId s.ses.msgId) 3 [] ++
    CommandFrame s (nextId (some (nextId s.ses.msgId))) 6 []
  rx : t.phy.rx = s.phy.rx
  regs : KeepsRegs [] s t
  validates : t.validates = s.validates
  ctl : t.ctl = s.ctl
  diag : t.diag = s.diag

/-- `SOURCE_ACCEPT` and then `SOURCE_PS_RDY` grant the profile (R301). -/
theorem opSourceGrant_grants {s : State} (index : Nat) (profile : FixedPdo) (m : Message) (henv : s.env = [])
    (hcfg : checkConfig s.cfg = true) (hroom : TxRoom 22 s) :
    ∃ t, evalOp (opSeq (opSourceAccept index profile) (opSourcePsRdy profile m)) s = .ok () t ∧
      Grants s t index profile := by
  obtain ⟨p, haccept, hsends⟩ := opSourceAccept_sends index profile henv hcfg (hroom.of_le (by decide))
  have hroom' : TxRoom 11 (commandSent p [] s) := by
    rw [TxRoom, sends_tx_length hsends, Nat.add_assoc]; exact hroom
  obtain ⟨q, hready, hsends'⟩ := opSourcePsRdy_sends (s := updSes (recordAccept index profile) (commandSent p [] s))
    profile m henv hcfg hroom'
  have htx := hsends'.tx
  have hbefore : (switched profile m (updSes (recordAccept index profile) (commandSent p [] s))).phy.tx =
      s.phy.tx ++ CommandFrame s (nextId s.ses.msgId) 3 [] := hsends.tx
  rw [hbefore, commandFrame_congr (s := s) rfl] at htx
  refine ⟨_, (evalOp_seq_ok haccept).trans hready, rfl, rfl, rfl, rfl, htx, rfl, fun _ _ => rfl, ?_, ?_, ?_⟩
  all_goals simp [switched]

/-! ## Both roles (R309) -/

/-- The session with its counter UNSET (R250). -/
def unsetId (ses : Session) : Session := { ses with msgId := none }

/-- `ON_SOFT_RESET` without a reply (R309). -/
theorem opOnSoftReset_silent {s : State} (h : s.cfg.softResetReply = .silent) :
    evalOp opOnSoftReset s = .ok () (updSes unsetId s) := by
  simp only [opOnSoftReset, opResetMsgId, evalOp_seq, evalOp_modify, evalOp_bind, evalOp_cfg, updSes_cfg, h,
    evalOp_pure]
  rfl

/-- `ON_SOFT_RESET` with a reply sends Accept with ID 0 (R309). -/
theorem opOnSoftReset_accept {s : State} (h : s.cfg.softResetReply = .accept) (henv : s.env = [])
    (hcfg : checkConfig s.cfg = true) (hroom : TxRoom 11 s) :
    ∃ p, evalOp opOnSoftReset s = .ok () (commandSent p [] (updSes unsetId s)) ∧
      Sends (updSes unsetId s) (commandSent p [] (updSes unsetId s)) 3 [] := by
  obtain ⟨p, hsend, hsends⟩ := opSendControl_sends (s := updSes unsetId s) henv hcfg hroom (name := .accept)
    (type := 3) rfl
  refine ⟨p, ?_, hsends⟩
  simp only [opOnSoftReset, opResetMsgId, evalOp_seq, evalOp_modify, evalOp_bind, evalOp_cfg, updSes_cfg, h]
  exact hsend

end Sys2Proof.Machine
end

section
/-! Proofs of the statements of `41_frame_codec.md`, third part: what any reaction to a message can do, and the rows of
received headers that dispatch one (O54). -/

namespace Sys2Proof.Machine

/-! ## What a reaction can do, with any schedule -/

/-- What a completed reaction leaves: the codec, control and error state as they were; diagnostics and trace only
grow. -/
structure Reacts (s t : State) : Prop where
  scan : t.scan = s.scan
  ctl : t.ctl = s.ctl
  lastError : t.lastError = s.lastError
  diag : s.diag <+: t.diag
  trace : s.trace <+: t.trace

theorem Reacts.trans {s t u : State} (h : Reacts s t) (k : Reacts t u) : Reacts s u :=
  ⟨k.scan.trans h.scan, k.ctl.trans h.ctl, k.lastError.trans h.lastError, h.diag.trans k.diag, h.trace.trans k.trace⟩

/-- Nothing of this changes with the session. -/
theorem reacts_updSes (f : Session → Session) (s : State) : Reacts s (updSes f s) :=
  ⟨rfl, rfl, rfl, List.prefix_rfl, List.prefix_rfl⟩

/-- A transaction of the PHY moves nothing of this but the trace. -/
theorem Moved.reacts {ps : List Prim} {s t : State} (h : Moved ps s t) : Reacts s t :=
  ⟨h.scan, h.ctl, h.lastError, h.diag ▸ List.prefix_rfl, h.trace ▸ List.prefix_append _ _⟩

/-- How a reaction ends: completed, or by an error that surfaces; never by a cancellation and never unfinished. -/
def EndsReacting {α : Type} (s : State) : Res α → Prop
  | .ok _ t => Reacts s t
  | .exit x _ => ∃ e, x = .error e
  | .halt _ => True

/-- Whatever the state and the schedule, the operation ends as a reaction does. -/
def IsReaction {α : Type} (m : Op α) : Prop := ∀ s, EndsReacting s (evalOp m s)

theorem IsReaction.bind {α β : Type} {m : Op α} {f : α → Op β} (hm : IsReaction m) (hf : ∀ a, IsReaction (f a)) :
    IsReaction (opBind m f) := by
  intro s
  have hend := hm s
  rw [evalOp_bind]
  cases hrun : evalOp m s with
  | ok a t =>
    rw [hrun] at hend
    have hend' := hf a t
    cases hrun' : evalOp (f a) t with
    | ok b u => rw [hrun'] at hend'; simp only [hrun']; exact Reacts.trans hend hend'
    | exit x u => rw [hrun'] at hend'; simp only [hrun']; exact hend'
    | halt h => simp only [hrun']; trivial
  | exit x t => rw [hrun] at hend; exact hend
  | halt h => trivial

theorem IsReaction.seq {α β : Type} {m : Op α} {k : Op β} (hm : IsReaction m) (hk : IsReaction k) :
    IsReaction (opSeq m k) := hm.bind fun _ => hk

theorem IsReaction.pure {α : Type} (a : α) : IsReaction (opPure a) := fun s => reacts_updSes id s

theorem IsReaction.raise {α : Type} (e : Err) : IsReaction (opRaise e : Op α) := fun _ => ⟨e, rfl⟩

theorem IsReaction.require {α : Type} (ok : Bool) (e : Err) {k : Op α} (hk : IsReaction k) :
    IsReaction (opRequire ok e k) := by
  cases ok with
  | false => exact .raise e
  | true => exact hk

theorem IsReaction.codec {α : Type} (op : Byte) (r : Except CodecError α) : IsReaction (opCodec op r) := by
  cases r with
  | ok a => exact .pure a
  | error e => exact .raise _

theorem IsReaction.cfg : IsReaction opCfg := fun s => reacts_updSes id s

theorem IsReaction.updSes (f : Session → Session) : IsReaction (opModify (Machine.updSes f)) := reacts_updSes f

theorem IsReaction.emit (e : Event) : IsReaction (emit e) := fun _ =>
  ⟨rfl, rfl, rfl, List.prefix_append _ _, List.prefix_append _ _⟩

theorem IsReaction.tell (a : Ask) : IsReaction (tell a) := fun s => (moved_logPrim (.ask a) s).reacts

theorem IsReaction.wait (d : Nat) : IsReaction (waitFor d) := fun s => (moved_wait d s).reacts

theorem IsReaction.askSelect (pdos : List Pdo) : IsReaction (askSelect pdos) := by
  intro s
  rw [evalOp_askSelect, hostSelects]
  split <;> exact ⟨rfl, rfl, rfl, List.prefix_rfl, List.prefix_append _ _⟩

theorem IsReaction.askValidate (profile : FixedPdo) (m : Message) : IsReaction (askValidate profile m) := by
  intro s
  rw [evalOp_askValidate, hostValidates]
  split <;> exact ⟨rfl, rfl, rfl, List.prefix_rfl, List.prefix_append _ _⟩

/-- A FIFO write completes or raises BusError (R65, R341). -/
theorem IsReaction.fifoWrite (op : Byte) (v : List Byte) : IsReaction (memWrite op 0x43 v) := by
  intro s
  by_cases hroom : TxRoom v.length (envTick s)
  · by_cases hfate : busFate s = .completes
    · obtain ⟨t, hrun, hmoved, -, -⟩ := memWrite_completes op hfate (phyWrite_fifo hroom)
      rw [hrun]
      exact hmoved.reacts
    · obtain ⟨t, hrun, -, -⟩ := memWrite_fails op hfate (phyWrite_fifo hroom)
      rw [hrun]
      exact ⟨_, rfl⟩
  · have hfull : phyWrite 0x43 v (envTick s) = .busError := by
      simp only [phyWrite, if_true, if_pos (Nat.lt_of_not_le hroom)]
    rw [evalOp_memWrite, busWrite, hfull]
    cases busFate s <;> exact ⟨_, rfl⟩

theorem IsReaction.sendCommand (command : MsgName) (dataObjects : List Byte) :
    IsReaction (opSendCommand command dataObjects) := by
  have next : IsReaction opNextMsgId := fun s => by
    rw [evalOp_nextMsgId]; exact reacts_updSes (fun ses => { ses with msgId := some (nextId s.ses.msgId) }) s
  have packet : ∀ p, IsReaction (opSendPacket p) := fun p =>
    .require _ _ (.seq (.fifoWrite _ _) (.seq (.fifoWrite _ _) (.fifoWrite _ _)))
  exact .bind next fun _ => .bind .cfg fun _ => .bind (.codec _ _) fun p => .seq (packet p) (.updSes _)

theorem IsReaction.sinkSendRequest (pdos : List Pdo) : IsReaction (opSinkSendRequest pdos) := by
  refine .bind (.askSelect pdos) fun answer => ?_
  cases answer with
  | none => exact .emit _
  | some choice => exact .require _ _ (.bind (.codec _ _) fun _ => .seq (.sendCommand _ _) (.updSes _))

theorem IsReaction.vdmRespond (v : VdmHeader) : IsReaction (opVdmRespond v) := by
  cases v with
  | unstructured svid payload => exact .pure ()
  | structured svid version pos ct command =>
    rw [opVdmRespond]
    split
    · exact .pure ()
    · refine .bind .cfg fun cfg => ?_
      cases vdmResponse cfg command with
      | none => exact .pure ()
      | some payload => exact .bind (.codec _ _) fun _ => .sendCommand _ _

theorem IsReaction.sinkOnVdm (m : Message) : IsReaction (opSinkOnVdm m) := by
  rw [opSinkOnVdm]
  cases m.vdm with
  | none => exact .pure ()
  | some v => exact .vdmRespond v

theorem IsReaction.sourceReject (pos : Nat) : IsReaction (opSourceReject pos) :=
  .seq (.tell _) (.seq (.emit _) (.updSes _))

theorem IsReaction.sourceAccept (index : Nat) (profile : FixedPdo) : IsReaction (opSourceAccept index profile) :=
  .seq (.sendCommand _ _) (.updSes _)

theorem IsReaction.sourcePsRdy (profile : FixedPdo) (m : Message) : IsReaction (opSourcePsRdy profile m) :=
  .seq (.tell _) (.bind .cfg fun _ => .seq (.wait _) (.seq (.sendCommand _ _) (.updSes _)))

theorem IsReaction.sourceOnRequest (m : Message) : IsReaction (opSourceOnRequest m) := by
  refine .seq (.updSes _) (.bind .cfg fun cfg => ?_)
  dsimp only
  cases profileAt cfg (parseRequest (m.dataObjects.headD 0)).objectPosition with
  | none => exact .sourceReject _
  | some profile =>
    refine .bind (.askValidate profile m) fun yes => ?_
    cases yes with
    | false => exact .sourceReject _
    | true => exact .seq (.sourceAccept _ _) (.sourcePsRdy _ _)

theorem IsReaction.onSoftReset : IsReaction opOnSoftReset := by
  refine .seq (.updSes _) (.bind .cfg fun cfg => ?_)
  cases cfg.softResetReply with
  | accept => exact .sendCommand _ _
  | silent => exact .pure ()

theorem IsReaction.sinkDispatch (m : Message) : IsReaction (opSinkDispatch m) := by
  unfold opSinkDispatch
  split
  · exact .sinkSendRequest _
  · exact .seq (.tell _) (.updSes _)
  · exact .seq (.tell _) (.updSes _)
  · exact .sinkOnVdm m
  · exact .onSoftReset
  · exact .pure ()

theorem IsReaction.sourceDispatch (m : Message) : IsReaction (opSourceDispatch m) := by
  unfold opSourceDispatch
  split
  · exact .sourceOnRequest m
  · exact .onSoftReset
  · exact .pure ()

/-- `DISPATCH` of any message is a reaction (R284). -/
theorem IsReaction.dispatch (m : Message) : IsReaction (opDispatch m) := by
  rw [opDispatch]
  split
  · refine .bind .cfg fun cfg => ?_
    cases cfg.role with
    | sink => exact .sinkDispatch m
    | source => exact .sourceDispatch m
  · exact .pure ()

/-! ## A header row's run (R204, R205, R283, R285) -/

/-- A frame's objects and CRC wait in the RX FIFO, nothing else happening. -/
structure BodyWaits (s : State) (objs : List Word32) (crc rest : List Byte) : Prop where
  quiet : s.env = []
  count : objs.length ≤ 7
  whole : crc.length = 4
  rx : s.phy.rx = objs.flatMap wordBytes ++ crc ++ rest

/-- The state once they were read. -/
def bodyRead (objs : List Word32) (crc rest : List Byte) (s : State) : State :=
  received none (bodyReads objs crc) [] rest s

/-- That state field by field, as the statements write it. -/
theorem bodyRead_eq {s : State} (h : s.scan = none) (objs : List Word32) (crc rest : List Byte) :
    bodyRead objs crc rest s = { s with
      phy := { s.phy with rx := rest }
      trace := s.trace ++ (if objs.length = 0 then [] else [Prim.rd 0x43 (objs.flatMap wordBytes)]) ++
        [Prim.rd 0x43 crc] } := by
  have hreads : fifoReads (objs.flatMap wordBytes) =
      if objs.length = 0 then [] else [Prim.rd 0x43 (objs.flatMap wordBytes)] := by
    cases objs <;> rfl
  rw [← hreads, List.append_assoc, bodyRead, received, List.append_nil, h, bodyReads]

/-- The state after a message was handled and reported: the row's end (R285). -/
def reported (m : Message) (s : State) : State := setResult (.message m) (emitEvent (.received m) s)

/-- A completed reaction, reported, is what `Reports` says. -/
theorem reports_reported {objs : List Word32} {crc rest : List Byte} {s t : State} (m : Message)
    (h : Reacts (bodyRead objs crc rest s) t) : Reports s (reported m t) m := by
  obtain ⟨es, hdiag⟩ := h.diag
  obtain ⟨ps, htrace⟩ := h.trace
  refine ⟨rfl, ⟨es, ?_⟩, ⟨bodyReads objs crc ++ ps, ?_⟩, h.scan, h.ctl, h.lastError⟩
  · change t.diag ++ [.received m] = _
    rw [← hdiag, ← List.append_assoc]
    simp [bodyRead, received]
  · change t.trace ++ [.emit (.received m)] = _
    rw [← htrace]
    simp [bodyRead, received]

/-- Where the dispatch of its message completes, a header row ends with the report (R283, R285). -/
theorem opReceived_reports {s t : State} {b : MsgBits} {type : BitVec 5} {objs : List Word32} {crc rest : List Byte}
    (h : BodyWaits s objs crc rest)
    (hrun : evalOp (opDispatch (messageOf b type objs)) (bodyRead objs crc rest s) = .ok () t) :
    runOp .message (opReceived b (BitVec.ofNat 3 objs.length) type) s = .next (reported (messageOf b type objs) t) ∧
      Reports s (reported (messageOf b type objs) t) (messageOf b type objs) := by
  constructor
  · rw [bodyRead] at hrun
    simp only [runOp, opReceived_quiet h.quiet h.count h.whole h.rx, opHandle, evalOp_seq, hrun, evalOp_emit,
      evalOp_pure, conclude_ok]
    rfl
  · have hend := IsReaction.dispatch (messageOf b type objs) (bodyRead objs crc rest s)
    rw [hrun] at hend
    exact reports_reported _ hend

/-- A header row is `DISPATCH` of its message, then the report; a dispatch that ends in `Fault` ends the row there. -/
theorem opReceived_dispatches {s v : State} {b : MsgBits} {type : BitVec 5} {objs : List Word32} {crc rest : List Byte}
    (h : BodyWaits s objs crc rest)
    (hexec : runUnit (opDispatch (messageOf b type objs)) (bodyRead objs crc rest s) = .next v) :
    runOp .message (opReceived b (BitVec.ofNat 3 objs.length) type) s =
      if v.result = .unit then .next (reported (messageOf b type objs) v) else .next v := by
  have hend := IsReaction.dispatch (messageOf b type objs) (bodyRead objs crc rest s)
  rw [runUnit, runOp] at hexec
  cases hrun : evalOp (opDispatch (messageOf b type objs)) (bodyRead objs crc rest s) with
  | ok a t =>
    rw [hrun, conclude_ok] at hexec
    cases hexec
    obtain ⟨hrow, -⟩ := opReceived_reports h hrun
    exact hrow
  | exit x t =>
    rw [hrun] at hexec hend
    obtain ⟨e, rfl⟩ := hend
    cases hexec
    rw [bodyRead] at hrun
    simp only [runOp, opReceived_quiet h.quiet h.count h.whole h.rx, opHandle, evalOp_seq, hrun, conclude_exit]
    rfl
  | halt k => rw [hrun] at hexec; cases k <;> cases hexec

/-! ## The messages with a reaction (R284) -/

/-- The name of a message with at most 7 objects (R111, R206). -/
theorem messageOf_name (b : MsgBits) (type : BitVec 5) {objs : List Word32} (h : objs.length ≤ 7) :
    (messageOf b type objs).name = typeLookup (if objs.length = 0 then .control else .data) type := by
  rw [← classOf_ofNat_length h]; rfl

section Dispatch

variable {s : State} {m : Message} {b : MsgBits} {w : Word32} {ws : List Word32}

/-- The sink dispatches a primary-SOP message on its name (R284). -/
theorem opDispatch_sink (hsop : m.sop = .primary) (hrole : s.cfg.role = .sink) :
    evalOp (opDispatch m) s = evalOp (opSinkDispatch m) s := by
  simp only [opDispatch, hsop, if_true, evalOp_bind, evalOp_cfg, hrole]

/-- The source dispatches a primary-SOP message on its name (R284). -/
theorem opDispatch_source (hsop : m.sop = .primary) (hrole : s.cfg.role = .source) :
    evalOp (opDispatch m) s = evalOp (opSourceDispatch m) s := by
  simp only [opDispatch, hsop, if_true, evalOp_bind, evalOp_cfg, hrole]

/-- Soft_Reset is handled by both roles (R309). -/
theorem opDispatch_softReset (hsop : b.sop = .primary) :
    evalOp (opDispatch (messageOf b 13 [])) s = evalOp opOnSoftReset s := by
  cases hrole : s.cfg.role with
  | sink => exact opDispatch_sink hsop hrole
  | source => exact opDispatch_source hsop hrole

/-- Accept and PS_RDY are handled alike by the sink (R292). -/
theorem opDispatch_accept (psRdy : Bool) (hsop : b.sop = .primary) (hrole : s.cfg.role = .sink) :
    evalOp (opDispatch (messageOf b (if psRdy then 6 else 3) [])) s =
      evalOp (opSinkOnAccept (messageOf b (if psRdy then 6 else 3) [])) s := by
  cases psRdy <;> exact opDispatch_sink hsop hrole

/-- Source_Capabilities is a request of its list to the sink (R290). -/
theorem opDispatch_sourceCapabilities (hsop : b.sop = .primary) (hlen : (w :: ws).length ≤ 7)
    (hrole : s.cfg.role = .sink) :
    evalOp (opDispatch (messageOf b 1 (w :: ws))) s = evalOp (opSinkSendRequest (parsePdoList (w :: ws))) s := by
  have hname := messageOf_name b 1 hlen
  rw [opDispatch_sink hsop hrole, opSinkDispatch, hname]
  rfl

/-- Vendor_Defined hands the sink's responder its header (R293). -/
theorem opDispatch_vendorDefined (hsop : b.sop = .primary) (hlen : (w :: ws).length ≤ 7) (hrole : s.cfg.role = .sink) :
    evalOp (opDispatch (messageOf b 15 (w :: ws))) s = evalOp (opVdmRespond (ParsedVdm w)) s := by
  have hname := messageOf_name b 15 hlen
  have hvdm : (messageOf b 15 (w :: ws)).vdm = some (ParsedVdm w) :=
    dataMessage_vdm (m := ⟨b, w, ws⟩) (Nat.le_of_succ_le_succ hlen)
  rw [opDispatch_sink hsop hrole, opSinkDispatch, hname]
  change evalOp (opSinkOnVdm (messageOf b 15 (w :: ws))) s = _
  rw [opSinkOnVdm, hvdm]

/-- Request is handled by the source (R301). -/
theorem opDispatch_request (hsop : b.sop = .primary) (hlen : (w :: ws).length ≤ 7) (hrole : s.cfg.role = .source) :
    evalOp (opDispatch (messageOf b 2 (w :: ws))) s = evalOp (opSourceOnRequest (messageOf b 2 (w :: ws))) s := by
  have hname := messageOf_name b 2 hlen
  rw [opDispatch_source hsop hrole, opSourceDispatch, hname]
  rfl

end Dispatch

/-! ## The rows with a reaction (R290 to R293, R301, R309) -/

/-- A command sent by the reaction of a row was sent, for the statements, from the state whose FIFO the row had read. -/
theorem sends_reported {s t : State} {objs : List Word32} {crc rest : List Byte} {type : BitVec 5} {d : List Byte}
    (m : Message) (h : Sends (bodyRead objs crc rest s) t type d) :
    Sends { s with phy := { s.phy with rx := rest } } (reported m t) type d :=
  sends_congr h {} {}

section Rows

variable {s : State} {b : MsgBits} {w : Word32} {ws : List Word32} {n : BitVec 3} {crc rest : List Byte}

/-- The Accept and PS_RDY rows on the sink (R292). -/
theorem acceptRow_powers (psRdy : Bool) (h : BodyWaits s [] crc rest) (hsop : b.sop = .primary)
    (hrole : s.cfg.role = .sink) :
    ∃ u, exec (if psRdy then .ctrlPsRdy b else .ctrlAccept b) s = .next u ∧
      Reports s u (messageOf b (if psRdy then 6 else 3) []) ∧ u.ses = { s.ses with sinkState := .powered } ∧
      Does s u [.rd 0x43 crc, .ask (.onAccept (messageOf b (if psRdy then 6 else 3) [])),
        .emit (.received (messageOf b (if psRdy then 6 else 3) []))] ∧ u.phy = { s.phy with rx := rest } := by
  have hrow : exec (if psRdy then .ctrlPsRdy b else .ctrlAccept b) s =
      runOp .message (opReceived b 0#3 (if psRdy then 6 else 3)) s := by cases psRdy <;> rfl
  have hrun : evalOp (opSinkOnAccept (messageOf b (if psRdy then 6 else 3) [])) (bodyRead [] crc rest s) =
      .ok () _ := rfl
  obtain ⟨hexec, hreports⟩ := opReceived_reports h
    ((opDispatch_accept (s := bodyRead _ crc rest s) psRdy hsop hrole).trans hrun)
  refine ⟨_, hrow.trans hexec, hreports, rfl, ?_, rfl⟩
  simp [Does, reported, bodyRead, received, bodyReads, fifoReads]

/-- The Soft_Reset row without a reply (R309). -/
theorem softResetRow_silent (h : BodyWaits s [] crc rest) (hsop : b.sop = .primary)
    (hreply : s.cfg.softResetReply = .silent) :
    ∃ u, exec (.ctrlSoftReset b) s = .next u ∧ Reports s u (messageOf b 13 []) ∧
      u.ses = { s.ses with msgId := none } ∧ u.phy = { s.phy with rx := rest } := by
  have hrun := opOnSoftReset_silent (s := bodyRead [] crc rest s) hreply
  obtain ⟨hexec, hreports⟩ := opReceived_reports h ((opDispatch_softReset hsop).trans hrun)
  exact ⟨_, hexec, hreports, rfl, rfl⟩

/-- The Soft_Reset row with a reply (R309). -/
theorem softResetRow_accept (h : BodyWaits s [] crc rest) (hsop : b.sop = .primary)
    (hreply : s.cfg.softResetReply = .accept) (hcfg : checkConfig s.cfg = true) (hroom : TxRoom 11 s) :
    ∃ u, exec (.ctrlSoftReset b) s = .next u ∧ Reports s u (messageOf b 13 []) ∧
      Sends { s with phy := { s.phy with rx := rest }, ses := { s.ses with msgId := none } } u 3 [] ∧
      u.ses.msgId = some 0 := by
  obtain ⟨p, hrun, hsends⟩ := opOnSoftReset_accept (s := bodyRead [] crc rest s) hreply h.quiet hcfg hroom
  obtain ⟨hexec, hreports⟩ := opReceived_reports h ((opDispatch_softReset hsop).trans hrun)
  exact ⟨_, hexec, hreports, sends_congr hsends {} {}, rfl⟩

/-- The Source_Capabilities row on the sink, with an answer that can be encoded (R290, R291). -/
theorem sourceCapabilitiesRow_requests {index current : Nat} {more : List (Option (Nat × Nat))}
    (h : BodyWaits s (w :: ws) crc rest) (hsop : b.sop = .primary) (hrole : s.cfg.role = .sink)
    (hcfg : checkConfig s.cfg = true) (hroom : TxRoom 15 s) (hselects : s.selects = some (index, current) :: more)
    (hindex : index < (w :: ws).length) (hmod : current % 10 = 0) (hmax : current ≤ 10230) :
    ∃ (u : State) (rdo : Word32), exec (.dataSourceCapabilities b (BitVec.ofNat 3 (ws.length + 1))) s = .next u ∧
      Reports s u (messageOf b 1 (w :: ws)) ∧ Sends { s with phy := { s.phy with rx := rest } } u 2 (wordBytes rdo) ∧
      ParsedRequest rdo = ⟨index + 1, current, current, 0⟩ ∧
      u.ses.selectedProfile = some (.sink index current) ∧ u.ses.sinkState = .requestSent ∧ u.selects = more := by
  have hpdos : (parsePdoList (w :: ws)).length = (w :: ws).length := List.length_map _
  have hcount := h.count
  obtain ⟨p, hrun, hsends⟩ := opSinkSendRequest_sends (s := bodyRead (w :: ws) crc rest s) h.quiet hcfg hroom hselects
    (hpdos ▸ hcount) (hpdos ▸ hindex) hmod hmax
  obtain ⟨hexec, hreports⟩ := opReceived_reports h
    ((opDispatch_sourceCapabilities (s := bodyRead _ crc rest s) hsop hcount hrole).trans hrun)
  exact ⟨_, requestWord index current, hexec, hreports, sends_reported _ hsends,
    parsedRequest_requestWord (by omega) hmod hmax, rfl, rfl, rfl⟩

/-- The Vendor_Defined row on the sink, with a header that is not answered (R293). -/
theorem vendorDefinedRow_other {v : VdmBits} {ct : BitVec 2} {command : BitVec 5}
    (h : BodyWaits s (vdmWord v ct command :: ws) crc rest) (hsop : b.sop = .primary) (hrole : s.cfg.role = .sink)
    (hother : ct ≠ 0 ∨ AnswerTo s command = none) :
    ∃ u, exec (.dataVendorDefined b (BitVec.ofNat 3 (ws.length + 1))) s = .next u ∧
      Reports s u (messageOf b 15 (vdmWord v ct command :: ws)) ∧ u.ses = s.ses ∧
      u.phy = { s.phy with rx := rest } := by
  have hrun := opVdmRespond_other (s := bodyRead (vdmWord v ct command :: ws) crc rest s) v hother
  rw [← parsedVdm_vdmWord] at hrun
  obtain ⟨hexec, hreports⟩ := opReceived_reports h
    ((opDispatch_vendorDefined (s := bodyRead _ crc rest s) hsop h.count hrole).trans hrun)
  exact ⟨_, hexec, hreports, rfl, rfl⟩

/-- The Vendor_Defined row on the sink, with a request of an answered command (R293). -/
theorem vendorDefinedRow_acknowledges {v : VdmBits} {command : BitVec 5} {payload : List Byte}
    (h : BodyWaits s (vdmWord v 0 command :: ws) crc rest) (hsop : b.sop = .primary) (hrole : s.cfg.role = .sink)
    (hanswer : AnswerTo s command = some payload) (hcfg : checkConfig s.cfg = true) (hroom : TxRoom 39 s) :
    ∃ (u : State) (a : Word32), exec (.dataVendorDefined b (BitVec.ofNat 3 (ws.length + 1))) s = .next u ∧
      Reports s u (messageOf b 15 (vdmWord v 0 command :: ws)) ∧
      Sends { s with phy := { s.phy with rx := rest } } u 15 (wordBytes a ++ payload) ∧
      ParsedVdm a = .structured v.svid v.version v.objectPosition 1 command := by
  obtain ⟨p, hrun, hsends⟩ := opVdmRespond_sends (s := bodyRead (vdmWord v 0 command :: ws) crc rest s) v h.quiet hcfg
    hroom hanswer
  rw [← parsedVdm_vdmWord] at hrun
  obtain ⟨hexec, hreports⟩ := opReceived_reports h
    ((opDispatch_vendorDefined (s := bodyRead _ crc rest s) hsop h.count hrole).trans hrun)
  obtain ⟨hparse, -⟩ := ackWord_parses v command
  exact ⟨_, ackWord v command, hexec, hreports, sends_reported _ hsends, hparse⟩

/-- The object position of a Request message is that of its first object (R301). -/
theorem request_objectPosition (b : MsgBits) (w : Word32) (ws : List Word32) :
    (parseRequest ((messageOf b 2 (w :: ws)).dataObjects.headD 0)).objectPosition = (w.extractLsb' 28 4).toNat :=
  congrArg Request.objectPosition (parseRequest_eq w)

/-- The Request row on the source, for no advertised profile (R302, R305). -/
theorem requestRow_unknown (h : BodyWaits s (w :: ws) crc rest) (hsop : b.sop = .primary)
    (hrole : s.cfg.role = .source) (hprofile : profileAt s.cfg (w.extractLsb' 28 4).toNat = none) :
    ∃ u, exec (.dataRequest b (BitVec.ofNat 3 (ws.length + 1))) s = .next u ∧
      Reports s u (messageOf b 2 (w :: ws)) ∧ u.phy = { s.phy with rx := rest } ∧
      u.ses = { s.ses with selectedProfile := none, sourceState := .advertisementSent } := by
  have hrun := opSourceOnRequest_unknown (s := bodyRead (w :: ws) crc rest s) (request_objectPosition b w ws) hprofile
  obtain ⟨hexec, hreports⟩ := opReceived_reports h
    ((opDispatch_request (s := bodyRead _ crc rest s) hsop h.count hrole).trans hrun)
  exact ⟨_, hexec, hreports, rfl, rfl⟩

/-- The Request row on the source, for a profile the host turns down (R301, R305). -/
theorem requestRow_refused {profile : FixedPdo} {more : List Bool} (h : BodyWaits s (w :: ws) crc rest)
    (hsop : b.sop = .primary) (hrole : s.cfg.role = .source)
    (hprofile : profileAt s.cfg (w.extractLsb' 28 4).toNat = some profile) (hno : s.validates = false :: more) :
    ∃ u, exec (.dataRequest b (BitVec.ofNat 3 (ws.length + 1))) s = .next u ∧
      Reports s u (messageOf b 2 (w :: ws)) ∧ u.phy = { s.phy with rx := rest } ∧
      u.ses = { s.ses with selectedProfile := none, sourceState := .advertisementSent } ∧ u.validates = more := by
  have hrun := opSourceOnRequest_refused (s := bodyRead (w :: ws) crc rest s) (request_objectPosition b w ws) hprofile
    hno
  obtain ⟨hexec, hreports⟩ := opReceived_reports h
    ((opDispatch_request (s := bodyRead _ crc rest s) hsop h.count hrole).trans hrun)
  exact ⟨_, hexec, hreports, rfl, rfl, rfl⟩

/-- The Request row on the source, for a profile the host accepts (R301, R303, R304). -/
theorem requestRow_granted {profile : FixedPdo} {more : List Bool} (h : BodyWaits s (w :: ws) crc rest)
    (hsop : b.sop = .primary) (hrole : s.cfg.role = .source)
    (hprofile : profileAt s.cfg (w.extractLsb' 28 4).toNat = some profile) (hyes : s.validates = true :: more)
    (hcfg : checkConfig s.cfg = true) (hroom : TxRoom 22 s) :
    ∃ t, exec (.dataRequest b (BitVec.ofNat 3 (ws.length + 1))) s = .next (reported (messageOf b 2 (w :: ws)) t) ∧
      Reports s (reported (messageOf b 2 (w :: ws)) t) (messageOf b 2 (w :: ws)) ∧
      Grants (validated profile (messageOf b 2 (w :: ws)) more (validating (bodyRead (w :: ws) crc rest s))) t
        ((w.extractLsb' 28 4).toNat - 1) profile := by
  have hgranted := opSourceOnRequest_granted (s := bodyRead (w :: ws) crc rest s) (request_objectPosition b w ws)
    hprofile hyes
  obtain ⟨t, hrun, hgrants⟩ := opSourceGrant_grants
    (s := validated profile (messageOf b 2 (w :: ws)) more (validating (bodyRead (w :: ws) crc rest s)))
    ((w.extractLsb' 28 4).toNat - 1) profile (messageOf b 2 (w :: ws)) h.quiet hcfg hroom
  obtain ⟨hexec, hreports⟩ := opReceived_reports h
    ((opDispatch_request (s := bodyRead _ crc rest s) hsop h.count hrole).trans (hgranted.trans hrun))
  exact ⟨t, hexec, hreports, hgrants⟩

end Rows

/-- Settles O54: any row is its dispatch and report; then the rows with a reaction, one by one. -/
theorem headerRowsDispatchTheirMessage : Obligations.HeaderRowsDispatchTheirMessage := by
  refine ⟨fun s v b t objs crc rest henv hlen hcrc hr hscan hexec => ?_,
    fun s r b crc rest henv hsop hcrc hr hstate => ?_,
    fun s r b w ws n crc rest henv hsop hlen hn hcrc hr hstate => ?_⟩
  · rw [← bodyRead_eq hscan] at hexec
    rw [exec_headerRow]
    exact opReceived_dispatches ⟨henv, hlen, hcrc, hr⟩ hexec
  · subst hstate
    have hwaits : BodyWaits s [] crc rest := ⟨henv, by decide, hcrc, hr⟩
    exact ⟨fun hrole psRdy => acceptRow_powers psRdy hwaits hsop hrole, softResetRow_silent hwaits hsop,
      softResetRow_accept hwaits hsop⟩
  · subst hstate hn
    have hwaits : BodyWaits s (w :: ws) crc rest := ⟨henv, Nat.succ_le_succ hlen, hcrc, hr⟩
    refine ⟨fun index current more hrole => sourceCapabilitiesRow_requests hwaits hsop hrole,
      fun v ct command hrole hw => ?_, fun pos hrole hpos => ?_⟩
    · subst hw
      refine ⟨vendorDefinedRow_other hwaits hsop hrole, fun payload hct hanswer => ?_⟩
      subst hct
      exact vendorDefinedRow_acknowledges hwaits hsop hrole hanswer
    · subst hpos
      refine ⟨fun hout => requestRow_unknown hwaits hsop hrole (profileAt_none hout),
        fun profile more hpos hprofile => ⟨requestRow_refused hwaits hsop hrole (profileAt_some hpos hprofile),
          fun hyes hcfg hroom => ?_⟩⟩
      obtain ⟨t, hexec, hreports, hgrants⟩ :=
        requestRow_granted hwaits hsop hrole (profileAt_some hpos hprofile) hyes hcfg hroom
      exact ⟨_, hexec, hreports, hgrants.sourceState, hgrants.accepted, hgrants.selected, hgrants.validates, hgrants.tx,
        hgrants.rx, hgrants.regs⟩

end Sys2Proof.Machine
end

section
/-! Proofs of the statements of `42_sequencer.md`: the message-ID counter (O38) and the sent log (O40). -/

namespace Sys2Proof.Machine

/-! ## The message-ID counter (R250, R251, R254) -/

/-- The state in which `id` was taken as the message ID and returned (R251). -/
def idTaken (id : BitVec 3) (s : State) : State :=
  { s with ses := { s.ses with msgId := some id }, result := .msgId id }

/-- The message ID is the one taken last. -/
theorem idTaken_msgId (id : BitVec 3) (s : State) : (idTaken id s).ses.msgId = some id := rfl

/-- A later ID replaces an earlier one and the result it left. -/
theorem idTaken_idTaken (i j : BitVec 3) (s : State) : idTaken j (idTaken i s) = idTaken j s := rfl

/-- UNSET goes to 0 (R251). -/
theorem nextId_none : nextId none = 0 := rfl

/-- Every ID goes to the next mod 8 (R251). -/
theorem nextId_some_toNat (k : BitVec 3) : (nextId (some k)).toNat = (k.toNat + 1) % 8 := BitVec.toNat_add k 1

/-- `RESET_MSG_ID` leaves the session with the ID UNSET (R250). -/
theorem exec_resetMsgId (s : State) :
    exec .resetMsgId s = .next { s with ses := unsetId s.ses, result := .unit } := by
  change runOp (fun _ => .unit) opResetMsgId s = _
  rw [runOp, opResetMsgId, evalOp_modify, conclude_ok]
  rfl

/-- `NEXT_MSG_ID` takes the next ID and returns it (R251). -/
theorem exec_nextMsgId (s : State) : exec .nextMsgId s = .next (idTaken (nextId s.ses.msgId) s) := by
  change runOp .msgId opNextMsgId s = _
  rw [runOp, evalOp_nextMsgId, conclude_ok]
  rfl

/-- A run goes on from the state its first instruction answers. -/
theorem runAll_cons_next {i : Instr} {s t : State} (h : exec i s = .next t) (rest : List Instr) :
    runAll (i :: rest) s = runAll rest t := by
  rw [runAll, h]

/-- `n + 1` times `NEXT_MSG_ID` counts `n` on from the first ID taken. -/
theorem runAll_replicate_nextMsgId (n : Nat) (s : State) :
    runAll (List.replicate (n + 1) .nextMsgId) s = .next (idTaken (nextId s.ses.msgId + BitVec.ofNat 3 n) s) := by
  induction n generalizing s with
  | zero => rw [List.replicate_one, runAll_cons_next (exec_nextMsgId s), runAll, BitVec.add_zero]
  | succ n ih =>
    have hcount (i : BitVec 3) : nextId (some i) + BitVec.ofNat 3 n = i + BitVec.ofNat 3 (n + 1) := by
      rw [nextId, BitVec.add_assoc, Nat.add_comm n 1, BitVec.ofNat_add, BitVec.ofNat_eq_ofNat]
    rw [List.replicate_succ, runAll_cons_next (exec_nextMsgId s), ih, idTaken_msgId, idTaken_idTaken, hcount]

/-- Settles O38: each instruction from its equation, the run of them by counting on from UNSET. -/
theorem messageIdCounts : Obligations.MessageIdCounts := by
  refine ⟨fun s => ⟨exec_resetMsgId s, nextId s.ses.msgId, exec_nextMsgId s, fun h => ?_, fun k h => ?_⟩,
    fun s t n hrun => ?_⟩
  · rw [h, nextId_none]
  · rw [h, nextId_some_toNat]
  · rw [runAll_cons_next (exec_resetMsgId s), runAll_replicate_nextMsgId] at hrun
    have hfirst : nextId (unsetId s.ses).msgId + BitVec.ofNat 3 n = BitVec.ofNat 3 n := BitVec.zero_add _
    rw [hfirst] at hrun
    cases hrun
    exact ⟨rfl, rfl⟩

/-! ## The sent log (R253) -/

/-- The state in which the log was reported, record by record, and emptied (R253). -/
def logDrained (s : State) : State :=
  updSes (fun ses => { ses with sentLog := [] }) (emitAll (s.ses.sentLog.map .sent) s)

/-- `DRAIN_LOG` reports the log it finds, then empties it (R253). -/
theorem evalOp_drainLog (s : State) : evalOp opDrainLog s = .ok () (logDrained s) := by
  simp only [opDrainLog, evalOp_bind, evalOp_seeLog, evalOp_seq, evalOp_forEach_emit, evalOp_modify, logDrained]

/-- Settles O40: the events are the records in order, and only the log of the session is another. -/
theorem drainLogReportsAndEmpties : Obligations.DrainLogReportsAndEmpties := by
  intro s
  have hexec : exec .drainLog s = .next (setResult .unit (logDrained s)) := by
    change runOp (fun _ => .unit) opDrainLog s = _
    rw [runOp, evalOp_drainLog, conclude_ok]
  exact ⟨_, hexec, rfl, rfl, rfl, rfl, ⟨rfl, rfl, rfl, rfl, rfl, rfl, rfl, rfl, rfl, rfl⟩⟩

end Sys2Proof.Machine
end

section
/-! Proofs of the statements of `43_negotiation.md`, first part: the reference policy (O33), `DISPATCH` and the reactions
both roles share (O41, O42, O48), the source's reactions (O51 to O53). -/

namespace Sys2Proof.Machine

/-! ## The reference policy (R313) -/

/-- A data object that is a Fixed PDO of exactly the voltage asked for, with its maximum current (R313). -/
def Offers (volts : Nat) (p : Pdo) (current : Nat) : Prop :=
  ∃ q, p = .fixed q ∧ q.voltage_mV = volts * 1000 ∧ current = q.maxCurrent_mA

section Policy

variable {volts i : Nat} {p : Pdo} {ps : List Pdo}

/-- An offer at the head of the list is taken (R313). -/
theorem selectPdoFrom_of_offers {current : Nat} (h : Offers volts p current) :
    selectPdoFrom volts i (p :: ps) = some (i, current) := by
  obtain ⟨q, rfl, hv, rfl⟩ := h
  exact if_pos hv

/-- A head that is no offer is skipped, whatever its kind (R313). -/
theorem selectPdoFrom_of_not_offers (h : ¬ ∃ current, Offers volts p current) :
    selectPdoFrom volts i (p :: ps) = selectPdoFrom volts (i + 1) ps := by
  cases p with
  | fixed q => exact if_neg fun hv => h ⟨_, q, rfl, hv, rfl⟩
  | _ => rfl

/-- The policy answers None exactly where nothing is offered (R313). -/
theorem selectPdoFrom_eq_none_iff :
    selectPdoFrom volts i ps = none ↔ ∀ p ∈ ps, ¬ ∃ current, Offers volts p current := by
  induction ps generalizing i with
  | nil => simp [selectPdoFrom]
  | cons p ps ih =>
    by_cases h : ∃ current, Offers volts p current
    · obtain ⟨current, hoffer⟩ := h
      rw [selectPdoFrom_of_offers hoffer]
      exact ⟨nofun, fun hnone => absurd ⟨current, hoffer⟩ (hnone p List.mem_cons_self)⟩
    · rw [selectPdoFrom_of_not_offers h, ih, List.forall_mem_cons, and_iff_right h]

/-- What the policy answers is the first offer of the list (R313). -/
theorem selectPdoFrom_eq_some {k current : Nat} (h : selectPdoFrom volts i ps = some (k, current)) :
    ∃ j p, k = i + j ∧ ps[j]? = some p ∧ Offers volts p current ∧
      ∀ l q, l < j → ps[l]? = some q → ¬ ∃ current, Offers volts q current := by
  induction ps generalizing i with
  | nil => cases h
  | cons p ps ih =>
    by_cases hp : ∃ current, Offers volts p current
    · obtain ⟨c, hoffer⟩ := hp
      rw [selectPdoFrom_of_offers hoffer] at h
      cases h
      exact ⟨0, p, rfl, rfl, hoffer, fun l q hl => absurd hl (Nat.not_lt_zero l)⟩
    · rw [selectPdoFrom_of_not_offers hp] at h
      obtain ⟨j, q, hk, hq, hoffer, hbefore⟩ := ih h
      refine ⟨j + 1, q, by omega, hq, hoffer, fun l r hl hr => ?_⟩
      cases l with
      | zero => cases hr; exact hp
      | succ l => exact hbefore l r (Nat.lt_of_succ_lt_succ hl) hr

end Policy

/-- Settles O33: the policy's two characterizations, read through the parsed list. -/
theorem selectPdoForVoltageTakesTheFirstMatch : Obligations.SelectPdoForVoltageTakesTheFirstMatch := by
  intro s ws volts
  have hlist : parsePdoList ws = ws.map ParsedPdo := by rw [parsePdoList, funext parsePdo_eq]
  refine ⟨_, runOp_pure .choice _ s, ?_, fun i c h => ?_⟩
  · rw [selectPdoForVoltage, selectPdoFrom_eq_none_iff, hlist, List.forall_mem_map]
    exact ⟨fun h w hw q hq hv => h w hw ⟨_, q, hq, hv, rfl⟩, fun h w hw ⟨_, q, hq, hv, _⟩ => h w hw q hq hv⟩
  · obtain ⟨j, p, hi, hp, ⟨q, hq, hv, hc⟩, hbefore⟩ := selectPdoFrom_eq_some h
    rw [Nat.zero_add] at hi
    subst hi
    rw [hlist, List.getElem?_map, Option.map_eq_some_iff] at hp
    obtain ⟨w, hw, hwp⟩ := hp
    refine ⟨⟨w, q, hw, hwp.trans hq, hv, hc⟩, fun l v r hl hl' hr hv' => ?_⟩
    refine hbefore l (ParsedPdo v) hl ?_ ⟨_, r, hr, hv', rfl⟩
    rw [hlist, List.getElem?_map, hl', Option.map_some]

/-! ## Both roles (R284, R292, R309) -/

/-- `DISPATCH` runs what the dispatch of its message runs. -/
theorem exec_dispatch_congr {s : State} {m : MsgOperand} {k : Op Unit}
    (h : evalOp (opDispatch (operandMessage m)) s = evalOp k s) : exec (.dispatch m) s = runUnit k s :=
  congrArg (conclude fun _ => .unit) h

/-- Settles O41: a message without a reaction by its name; then each reaction. -/
theorem dispatchFollowsTheName : Obligations.DispatchFollowsTheName := by
  refine ⟨fun s m hlen hignored => ?_, fun s b w ws hsop hlen => ?_⟩
  · exact exec_dispatch_congr (k := opPure ()) (opDispatch_ignored hlen hignored)
  · have hcount : (w :: ws).length ≤ 7 := Nat.succ_le_succ hlen
    refine ⟨exec_dispatch_congr (opDispatch_softReset hsop), fun hrole => ⟨?_, ?_, ?_, ?_⟩, fun hrole => ?_⟩
    · exact exec_dispatch_congr (opDispatch_sourceCapabilities hsop hcount hrole)
    · exact exec_dispatch_congr (m := ⟨b, 3, []⟩) (opDispatch_accept false hsop hrole)
    · exact exec_dispatch_congr (m := ⟨b, 6, []⟩) (opDispatch_accept true hsop hrole)
    · have hvdm : opSinkOnVdm (dataMessage 15#5 ⟨b, w, ws⟩) = opVdmRespond (ParsedVdm w) := by
        rw [opSinkOnVdm, dataMessage_vdm hlen]
      exact exec_dispatch_congr (m := ⟨b, 15, w :: ws⟩)
        ((opDispatch_vendorDefined hsop hcount hrole).trans (congrArg (evalOp · s) hvdm.symm))
    · exact exec_dispatch_congr (opDispatch_request hsop hcount hrole)

/-- Settles O42: the run with each reply. -/
theorem softResetResetsTheCounter : Obligations.SoftResetResetsTheCounter := by
  refine fun s => ⟨fun hreply => ?_, fun hreply henv hcfg hroom => ?_⟩
  · exact congrArg (conclude fun _ => .unit) (opOnSoftReset_silent hreply)
  · obtain ⟨p, hrun, hsends⟩ := opOnSoftReset_accept hreply henv hcfg hroom
    have hexec : exec .onSoftReset s = .next (setResult .unit (commandSent p [] (updSes unsetId s))) :=
      congrArg (conclude fun _ => .unit) hrun
    exact ⟨_, hexec, sends_setResult hsends .unit, rfl⟩

/-- Settles O48: the host is told, then the session changes. -/
theorem acceptPowersTheSink : Obligations.AcceptPowersTheSink := by
  intro s psRdy b
  change runUnit (opSinkOnAccept (acceptMessage psRdy b)) s = _
  simp only [runUnit, runOp, opSinkOnAccept, evalOp_seq, evalOp_tell, evalOp_modify, conclude_ok]
  rfl

/-! ## The source's advertisement (R300, R307) -/

/-- The data object of an advertised Fixed PDO (R213, R300). -/
def capsWord (p : FixedPdo) : Word32 := fixedPdoWord p.voltage_mV p.maxCurrent_mA p.peakCurrentCode p.extraFlags

/-- Whether a Fixed PDO can be built (R213). -/
def validPdo (p : FixedPdo) : Bool := validFixedPdo p.voltage_mV p.maxCurrent_mA p.peakCurrentCode p.extraFlags

/-- The advertisement of PDOs that can all be built is their data objects in order (R300). -/
theorem capsBytes_ok {ps : List FixedPdo} (h : ∀ p ∈ ps, validPdo p = true) :
    capsBytes ps = .ok ((ps.map capsWord).flatMap wordBytes) := by
  induction ps with
  | nil => rfl
  | cons p ps ih =>
    obtain ⟨hp, hps⟩ := List.forall_mem_cons.1 h
    simp only [capsBytes, buildFixedPdo_ok hp, ih hps]
    rfl

/-- The data objects of an advertisement parse back to its PDOs (R215, R300). -/
theorem map_parsedPdo_capsWord {ps : List FixedPdo} (h : ∀ p ∈ ps, validPdo p = true) :
    (ps.map capsWord).map ParsedPdo = ps.map Pdo.fixed := by
  rw [List.map_map]
  refine List.map_congr_left fun p hp => ?_
  rw [Function.comp_apply, capsWord, ← parsePdo_eq, parsePdo_fixedPdoWord (h p hp)]

/-- What the configuration check says of a source's advertisement (R381). -/
theorem checkConfig_advertisedPdos {c : Cfg} (h : checkConfig c = true) (hrole : c.role = .source) :
    1 ≤ c.advertisedPdos.length ∧ c.advertisedPdos.length ≤ 7 ∧ ∀ p ∈ c.advertisedPdos, validPdo p = true := by
  simp only [checkConfig, Bool.and_eq_true, hrole, decide_eq_true_eq, List.all_eq_true] at h
  obtain ⟨-, ⟨hmin, hmax⟩, hvalid⟩ := h
  exact ⟨hmin, hmax, hvalid⟩

/-- The data of the source's advertisement (R300). -/
def capsData (c : Cfg) : List Byte := (c.advertisedPdos.map capsWord).flatMap wordBytes

/-- `SOURCE_ADVERTISE` sends the configured PDOs (R300). -/
theorem opSourceAdvertise_sends {s : State} (henv : s.env = []) (hcfg : checkConfig s.cfg = true)
    (hrole : s.cfg.role = .source) (hroom : TxRoom 39 s) :
    ∃ p, evalOp opSourceAdvertise s = .ok () (commandSent p (capsData s.cfg) s) ∧
      Sends s (commandSent p (capsData s.cfg) s) 1 (capsData s.cfg) := by
  obtain ⟨hmin, hmax, hvalid⟩ := checkConfig_advertisedPdos hcfg hrole
  have hlen : (capsData s.cfg).length = 4 * s.cfg.advertisedPdos.length := by
    rw [capsData, flatMap_wordBytes_length, List.length_map]
  have hindex : commandIndex (classOf (capsData s.cfg).length) .sourceCapabilities = some (1#5).toNat := by
    rw [hlen, classOf_four_mul, if_neg (Nat.ne_of_gt hmin)]; rfl
  obtain ⟨p, hsend, hsends⟩ := opSendCommand_sends henv hcfg hlen hmax (hroom.of_le (by omega)) hindex
  refine ⟨p, ?_, hsends⟩
  simp only [opSourceAdvertise, evalOp_bind, evalOp_cfg, capsBytes_ok hvalid, opCodec_ok, evalOp_pure]
  exact hsend

/-- `ADV_CADENCE` counts, then advertises when it is due (R307). -/
theorem evalOp_advCadence (s : State) :
    evalOp opAdvCadence s = evalOp (if cadenceDue s then opSourceAdvertise else opPure ()) (countIteration s) := by
  simp only [opAdvCadence, evalOp_bind, evalOp_seeFlag]

/-- Once a profile is accepted or the cap is reached the cadence does nothing (R307). -/
theorem opAdvCadence_over {s : State} (h : s.ses.profileAccepted = true ∨ s.cfg.advMaxRetries ≤ s.ses.advRetries) :
    evalOp opAdvCadence s = .ok () s := by
  have hover : cadenceCounts s = false := by
    rw [cadenceCounts, Bool.and_eq_false_iff, Bool.not_eq_false', decide_eq_false_iff_not, Nat.not_lt]; exact h
  have hdue : cadenceDue s = false := by rw [cadenceDue, hover, Bool.false_and]
  simp only [evalOp_advCadence, countIteration, hdue, hover, Bool.false_eq_true, if_false, evalOp_pure]

/-- A cadence that counts is due exactly at the period (R307). -/
theorem cadenceDue_eq {s : State} (h : cadenceCounts s = true) :
    cadenceDue s = decide (s.ses.advIters + 1 = s.cfg.advPeriodIters) := by rw [cadenceDue, h, Bool.true_and]

/-- Settles O51: the advertisement sent, and the cadence's three cases. -/
theorem advertisementAndItsCadence : Obligations.AdvertisementAndItsCadence := by
  refine ⟨fun s henv hcfg hrole hroom => ?_,
    fun s => ⟨fun h => congrArg (conclude _) (opAdvCadence_over h), fun haccepted hretries => ?_⟩⟩
  · obtain ⟨p, hrun, hsends⟩ := opSourceAdvertise_sends henv hcfg hrole hroom
    obtain ⟨-, -, hvalid⟩ := checkConfig_advertisedPdos hcfg hrole
    have hexec : exec .sourceAdvertise s = .next (setResult .unit (commandSent p (capsData s.cfg) s)) :=
      congrArg (conclude fun _ => .unit) hrun
    exact ⟨_, _, hexec, sends_setResult hsends .unit, map_parsedPdo_capsWord hvalid, rfl, rfl, rfl, rfl, rfl, rfl⟩
  · have hcounts : cadenceCounts s = true := by
      rw [cadenceCounts, haccepted, Bool.not_false, Bool.true_and, decide_eq_true hretries]
    have hrun : exec .advCadence s = _ := congrArg (conclude fun _ => Value.unit) (evalOp_advCadence s)
    refine ⟨fun hiters => ?_, fun hiters => ?_⟩
    · rw [hrun, countIteration, cadenceDue_eq hcounts, decide_eq_false hiters, hcounts]
      rfl
    · rw [hrun, countIteration, cadenceDue_eq hcounts, decide_eq_true hiters]
      rfl

/-! ## Accept and PS_RDY (R303, R304) -/

/-- Asking the host and waiting are no part of what `Sends` looks at. -/
theorem sends_of_switched {s t : State} {profile : FixedPdo} {m : Message} {type : BitVec 5} {d : List Byte}
    (h : Sends (switched profile m s) t type d) : Sends s t type d :=
  { id := h.id, tx := h.tx, log := h.log, rx := h.rx, regs := h.regs
    latches := ⟨h.latches.intA, h.latches.intB, h.latches.intI, h.latches.cc1, h.latches.cc2, h.latches.status0,
      h.latches.status1, h.latches.status1a, h.latches.wire⟩
    ctl := h.ctl, lastError := h.lastError, cfg := h.cfg, pin := h.pin, counters := h.counters }

/-- Settles O52: both runs, with the command sent between the two changes. -/
theorem acceptThenPsRdy : Obligations.AcceptThenPsRdy := by
  refine ⟨fun s index profile henv hcfg hroom => ?_, fun s profile m henv hcfg hroom => ?_⟩
  · obtain ⟨p, hrun, hsends⟩ := opSourceAccept_sends index.toNat (profileOf profile) henv hcfg hroom
    have hexec : exec (.sourceAccept index profile) s = .next (setResult .unit _) := congrArg (conclude _) hrun
    exact ⟨_, hexec, sends_congr hsends {} {}, rfl, rfl, rfl, rfl, rfl⟩
  · obtain ⟨p, hrun, hsends⟩ := opSourcePsRdy_sends (profileOf profile) (dataMessage 2#5 m) henv hcfg hroom
    have hexec : exec (.sourcePsRdy profile m) s = .next (setResult .unit _) := congrArg (conclude _) hrun
    refine ⟨_, hexec, sends_congr (sends_of_switched hsends) {} {}, rfl, ?_, rfl, rfl, rfl, rfl⟩
    simp [commandSent, switched, dataMessage]

/-! ## Requests (R301, R302, R305, R306) -/

/-- A rejection from a state that differs from `s` in its flow state, its queue and what it asked is one from `s` (R305). -/
theorem rejects_rejected {s u : State} {asked : List Ask} (pos : Nat)
    (hses : u.ses = { s.ses with sourceState := u.ses.sourceState }) (hdiag : u.diag = s.diag)
    (htrace : u.trace = s.trace ++ asked.map Prim.ask) (hphy : u.phy = s.phy) (hctl : u.ctl = s.ctl)
    (herror : u.lastError = s.lastError) : Rejects s (setResult .unit (rejected pos u)) pos where
  ses := by simp only [setResult_ses, rejected, updSes_ses, emitEvent_ses, logPrim_ses]; rw [hses]
  diag := congrArg (· ++ [Event.policyRejected pos]) hdiag
  asked := by simp [rejected, htrace]
  phy := hphy
  ctl := hctl
  lastError := herror

/-- Settles O53: the rejection; then each way a Request can go. -/
theorem sourceHandlesARequest : Obligations.SourceHandlesARequest := by
  refine ⟨fun s pos => ?_, fun s m pos hpos => ⟨fun hout => ?_, fun profile more hfirst hprofile => ⟨fun hno => ?_,
    fun hyes henv hcfg hroom => ?_⟩⟩⟩
  · have hexec : exec (.sourceReject pos) s = .next (setResult .unit (rejected pos.toNat s)) := rfl
    refine ⟨_, hexec, rejects_rejected (asked := []) _ rfl rfl (List.append_nil _).symm rfl rfl rfl, ?_,
      ⟨rfl, rfl, rfl, rfl, rfl, rfl, rfl, rfl, rfl, rfl⟩⟩
    simp [Does, rejected]
  all_goals have hobject := (request_objectPosition m.bits m.first m.others).trans hpos.symm
  · have hexec : exec (.sourceOnRequest m) s = .next (setResult .unit _) :=
      congrArg (conclude _) (opSourceOnRequest_unknown hobject (profileAt_none hout))
    exact ⟨_, hexec, rejects_rejected (asked := []) _ rfl rfl (List.append_nil _).symm rfl rfl rfl, rfl⟩
  · have hexec : exec (.sourceOnRequest m) s = .next (setResult .unit _) :=
      congrArg (conclude _) (opSourceOnRequest_refused hobject (profileAt_some hfirst hprofile) hno)
    exact ⟨_, hexec, rejects_rejected (asked := [.validateProfile profile _]) _ rfl rfl rfl rfl rfl rfl, rfl⟩
  · have hgranted := opSourceOnRequest_granted hobject (profileAt_some hfirst hprofile) hyes
    obtain ⟨t, hrun, h⟩ := opSourceGrant_grants
      (s := validated profile (messageOf m.bits 2 (m.first :: m.others)) more (validating s)) (pos - 1) profile
      (messageOf m.bits 2 (m.first :: m.others)) henv hcfg hroom
    have hexec : exec (.sourceOnRequest m) s = .next (setResult .unit t) :=
      congrArg (conclude fun _ => .unit) (hgranted.trans hrun)
    exact ⟨_, hexec, h.sourceState, h.accepted, h.selected, h.validates, h.msgId, h.tx, h.rx, h.regs, h.ctl, h.diag⟩

end Sys2Proof.Machine
end

section
/-! Proofs of the statements of `43_negotiation.md`, second part: the detach check and the iteration it ends (O45), the
iteration that goes on (O55), the end-to-end scenario (O59). -/

namespace Sys2Proof.Machine

/-! ## Detection only adds to the trace -/

/-- A PHY answers a read with its own state and the draws changed at most. -/
theorem phyRead_reacts {addr : Byte} {n : Nat} {bs : List Byte} {s t : State} (h : phyRead addr n s = .done bs t) :
    Reacts s t := by
  obtain ⟨c, d, hstatus, -⟩ := readStatus0_shows s
  simp only [phyRead, hstatus] at h
  repeat' split at h
  all_goals cases h
  all_goals exact ⟨rfl, rfl, rfl, List.prefix_rfl, List.prefix_rfl⟩

/-- A PHY answers a write with its own state changed at most. -/
theorem phyWrite_reacts {addr : Byte} {v : List Byte} {s t : State} (h : phyWrite addr v s = .done () t) :
    Reacts s t := by
  simp only [phyWrite] at h
  repeat' split at h
  all_goals cases h
  all_goals exact ⟨rfl, rfl, rfl, List.prefix_rfl, List.prefix_rfl⟩

section Transactions

variable {α : Type} {s t : State} {e : Err} {failed : Prim} {answer : Answer α}

/-- A transaction that completes ends as a reaction does (R60, R341). -/
theorem endsReacting_answered (done : Prim) (ht : Reacts s t) (h : ∀ a u, answer = .done a u → Reacts t u) :
    EndsReacting s (answered e failed done t answer) := by
  cases answer with
  | done a u => exact (ht.trans (h a u rfl)).trans (moved_logPrim done u).reacts
  | busError => exact ⟨e, rfl⟩
  | fault f => exact trivial
  | refused r => exact trivial

/-- So does one that fails with its effect done (R63, R341). -/
theorem endsReacting_failedDone : EndsReacting s (failedDone e failed t answer) := by
  cases answer with
  | done a u => exact ⟨e, rfl⟩
  | busError => exact ⟨e, rfl⟩
  | fault f => exact trivial
  | refused r => exact trivial

end Transactions

/-- Any read ends as a reaction does (R60). -/
theorem IsReaction.memRead (op addr : Byte) (n : Nat) : IsReaction (memRead op addr n) := by
  intro s
  rw [evalOp_memRead, busRead]
  cases busFate s with
  | completes => exact endsReacting_answered _ (moved_envTick s).reacts fun _ _ => phyRead_reacts
  | failsDone => exact endsReacting_failedDone
  | failsUndone => exact ⟨_, rfl⟩

/-- Any write ends as a reaction does (R60). -/
theorem IsReaction.memWrite (op addr : Byte) (v : List Byte) : IsReaction (memWrite op addr v) := by
  intro s
  rw [evalOp_memWrite, busWrite]
  cases busFate s with
  | completes => exact endsReacting_answered _ (moved_envTick s).reacts fun _ _ => phyWrite_reacts
  | failsDone => exact endsReacting_failedDone
  | failsUndone => exact ⟨_, rfl⟩

theorem IsReaction.readReg (op addr : Byte) : IsReaction (readReg op addr) := .bind (.memRead _ _ _) fun _ => .pure _

theorem IsReaction.rmw (op addr clear set : Byte) : IsReaction (rmw op addr clear set) :=
  .bind (.readReg _ _) fun _ => .memWrite _ _ _

theorem IsReaction.measureCc (pin : Nat) : IsReaction (opMeasureCc pin) := .require _ _ (.rmw _ _ _ _)

theorem IsReaction.measureSettled (pin : Nat) : IsReaction (opMeasureSettled pin) :=
  .seq (.measureCc pin) (.bind .cfg fun _ => .seq (.wait _) (.bind (.readReg _ _) fun _ => .pure _))

theorem IsReaction.bothLevels (debug : Bool) : IsReaction (opBothLevels debug) := by
  refine .bind (.measureSettled 1) fun c1 => .bind (.measureSettled 2) fun c2 => .seq ?_ (.pure _)
  cases debug with
  | false => exact .pure ()
  | true => exact .emit _

theorem IsReaction.detect (d : Detect) : IsReaction (opDetect d) := by
  cases d with
  | sink debug => exact .bind (.bothLevels debug) fun _ => .pure _
  | source code debug => exact .require _ _ (.bind (.bothLevels debug) fun _ => .pure _)

theorem IsReaction.settleOn (pin : CCPin) : IsReaction (opSettleOn pin) :=
  .bind .cfg fun _ => .seq (.rmw _ _ _ _) <| .seq (.require _ _ (.bind .cfg fun _ => .rmw _ _ _ _)) <|
    .seq (.measureCc _) <| .seq (.rmw _ _ _ _) <| .seq (.rmw _ _ _ _) <| .seq (.memWrite _ _ _) <|
    .seq (.updSes _) (.pure pin)

/-- `FIND_CC` ends as a reaction does: it leaves control and error state and adds to the trace (R163). -/
theorem IsReaction.findCc (d : Detect) : IsReaction (opFindCc d) := .bind (.detect d) .settleOn

/-! ## The detach check (R288, R289) -/

theorem LevelsSteady.of_quiet {s : State} (h : s.env = []) : LevelsSteady s := fun e he => by
  rw [h] at he; exact absurd he List.not_mem_nil

/-- A detach check that finds no pin: the `Detached` event is the last thing it does (R288, R349). -/
theorem opDetachCheck_detaches {s : State} (hs : Responsive s) (hl : LevelsSteady s) (hcfg : checkConfig s.cfg = true)
    (hnone : StrategyPin (roleDetect s.cfg s.cfg.role) s.phy.cc1 s.phy.cc2 = .none) :
    ∃ t, evalOp opDetachCheck s = .ok false (emitEvent .detached (updSes (storePin .none) t)) ∧
      KeepsBlock s t ∧ t.ses = s.ses ∧ s.trace <+: t.trace := by
  obtain ⟨u, t, hrun, h⟩ := opFindCc_settles (findsPin_roleDetect hs hl hcfg)
  have hgrows : EndsReacting s (evalOp (opFindCc (roleDetect s.cfg s.cfg.role)) s) := IsReaction.findCc _ s
  rw [hrun] at hgrows
  rw [hnone] at hrun
  refine ⟨t, ?_, h.all.block, h.all.ses, hgrows.trace⟩
  simp only [opDetachCheck, evalOp_bind, evalOp_cfg, hrun, if_true, evalOp_seq, evalOp_emit, evalOp_pure]

/-! ## The parts of an iteration (R282) -/

/-- RX_EMPTY of Status1 (R53, R173). -/
theorem rxFlags_status1Byte (cfg : Cfg) (p : Phy) : (rxFlags (status1Byte cfg p)).1 = p.rx.isEmpty := by
  have all : ∀ (hi lo : BitVec 2) (a b c d : Bool), (hi ++ BitVec.ofBool a ++ BitVec.ofBool b ++ BitVec.ofBool c ++
      BitVec.ofBool d ++ lo : BitVec 8).getLsbD 5 = a := by decide
  exact all _ _ _ _ _ _

/-- The state after Status1 was read (R173). -/
def status1Read (s : State) : State := logPrim (.rd 0x41 [status1Byte s.cfg s.phy]) s

/-- `READ_RX_STATE`, nothing else happening: whether the RX FIFO is empty (R173). -/
theorem opReadRxState_quiet {s : State} (henv : s.env = []) :
    ∃ full, evalOp opReadRxState s = .ok (s.phy.rx.isEmpty, full) (status1Read s) := by
  have hphy : phyRead 0x41 1 s = .done [status1Byte s.cfg s.phy] s := rfl
  refine ⟨(rxFlags (status1Byte s.cfg s.phy)).2, ?_⟩
  rw [← rxFlags_status1Byte s.cfg s.phy, opReadRxState, evalOp_bind, readReg_quiet_of_phyRead henv hphy]
  rfl

/-- `RX_STEP` with an empty FIFO reads Status1 and does nothing else (R283). -/
theorem opRxStep_empty {s : State} (henv : s.env = []) (hrx : s.phy.rx = []) (reads : Nat) :
    evalOp (opRxStep reads) s = .ok () (status1Read s) := by
  obtain ⟨full, hstate⟩ := opReadRxState_quiet henv
  simp only [opRxStep, evalOp_bind, hstate, hrx, List.isEmpty_nil, if_true, evalOp_pure]

/-- The state after Status1 and a whole frame were read (R200 to R205). -/
def frameRead (mark b0 b1 : Byte) (objs : List Word32) (crc rest : List Byte) (s : State) : State :=
  received none (.rd 0x43 [mark] :: .rd 0x43 [b0, b1] :: bodyReads objs crc) [] rest (status1Read s)

/-- `RX_STEP` with a whole frame in the FIFO is the handling of its message (R283). -/
theorem opRxStep_frame {s : State} {mark b0 b1 : Byte} {sop : Sop} {objs : List Word32} {crc rest : List Byte}
    {reads : Nat} (henv : s.env = []) (hmark : markerOf mark = some (.frame sop)) (hreads : 0 < reads)
    (hobjs : objs.length = (headerCount b0).toNat) (hcrc : crc.length = 4)
    (hr : s.phy.rx = mark :: b0 :: b1 :: (objs.flatMap wordBytes ++ crc ++ rest)) :
    evalOp (opRxStep reads) s =
      evalOp (opHandle (buildMessage sop (decodeHeader sop b0 b1) objs)) (frameRead mark b0 b1 objs crc rest s) := by
  obtain ⟨full, hstate⟩ := opReadRxState_quiet henv
  have hparse := opParseMessage_quiet (s := status1Read s) (junk := []) (reads := reads) henv nofun hmark hreads hobjs
    hcrc hr
  simp only [opRxStep, evalOp_bind, hstate, hr, List.isEmpty_cons, Bool.false_eq_true, if_false, hparse]
  rfl

/-- With the pin deasserted the interrupt part does nothing (R282). -/
theorem opIntPhase_idle {s : State} (henv : s.env = []) (hpin : intPin s.phy = false) :
    evalOp opIntPhase s = .ok true s := by
  simp only [opIntPhase, evalOp_bind, evalOp_samplePin, envTick_quiet henv, hpin, Bool.false_eq_true, if_false,
    evalOp_pure]

/-- With the pin asserted the interrupt part is `INT_STEP` (R282). -/
theorem opIntPhase_asserted {s : State} (henv : s.env = []) (hpin : intPin s.phy = true) :
    evalOp opIntPhase s = evalOp opIntStep s := by
  simp only [opIntPhase, evalOp_bind, evalOp_samplePin, envTick_quiet henv, hpin, if_true]

/-- There is no cadence for a sink, nor for a source whose cadence is over (R282, R307). -/
def CadenceOver (s : State) : Prop :=
  s.cfg.role = .sink ∨ s.ses.profileAccepted = true ∨ s.cfg.advMaxRetries ≤ s.ses.advRetries

/-- Then the cadence part does nothing. -/
theorem opCadencePhase_over {s : State} (h : CadenceOver s) : evalOp opCadencePhase s = .ok () s := by
  simp only [opCadencePhase, evalOp_bind, evalOp_cfg]
  cases hrole : s.cfg.role with
  | sink => rfl
  | source => exact opAdvCadence_over (h.resolve_left (by rw [hrole]; exact nofun))

/-- The state at the end of an iteration that went on: the log drained, the sleep, the stop signal sampled (R282). -/
def turned (s : State) : State :=
  { logPrim (.wait s.cfg.pollSleep) (passTime s.cfg.pollSleep (logDrained s)) with stops := s.stops.tail }

theorem turned_ses (s : State) : (turned s).ses = { s.ses with sentLog := [] } := rfl

theorem turned_selects (s : State) : (turned s).selects = s.selects := rfl

theorem turned_lastError (s : State) : (turned s).lastError = s.lastError := rfl

theorem turned_ctl (s : State) : (turned s).ctl = s.ctl := rfl

/-- An iteration whose receive step led to `r`, without an interrupt there: it drains, sleeps and goes on, or is
cancelled (R282, R348). -/
theorem opPollIteration_turns {s r : State} {reads : Nat} (hrx : evalOp (opRxStep reads) s = .ok () r)
    (henv : r.env = []) (hpin : intPin r.phy = false) (hover : CadenceOver r) :
    evalOp (opPollIteration reads) s =
      if r.stops.headD false then .exit .cancel (turned r) else .ok true (turned r) := by
  have hsleep : evalOp opSleepPhase (logDrained r) =
      .ok () (logPrim (.wait r.cfg.pollSleep) (passTime r.cfg.pollSleep (logDrained r))) := rfl
  simp only [opPollIteration, evalOp_seq, hrx, evalOp_bind, opIntPhase_idle henv hpin, if_true,
    opCadencePhase_over hover, evalOp_drainLog, hsleep, opStopPhase, evalOp_sampleStop]
  have hstops : (logPrim (.wait r.cfg.pollSleep) (passTime r.cfg.pollSleep (logDrained r))).stops = r.stops := rfl
  rw [hstops]
  cases r.stops.headD false <;> rfl

/-- An iteration on a quiet PHY (R282). -/
theorem opPollIteration_quiet {s : State} (reads : Nat) (henv : s.env = []) (hrx : s.phy.rx = [])
    (hpin : intPin s.phy = false) (hover : CadenceOver s) :
    evalOp (opPollIteration reads) s =
      if s.stops.headD false then .exit .cancel (turned (status1Read s)) else .ok true (turned (status1Read s)) :=
  opPollIteration_turns (opRxStep_empty henv hrx reads) henv hpin hover

/-- A turn of the flow around an iteration that stays attached (R391). -/
theorem opRunFlow_attached {s t : State} {reads : Nat}
    (h : evalOp (opPollIteration reads) (setCtl (.flow s.cfg.role 0) s) = .ok true t) :
    evalOp (opRunFlow reads) s = .ok () t := by
  simp only [opRunFlow, evalOp_bind, evalOp_cfg, evalOp_seq, evalOp_modify, h, if_true, evalOp_pure]

/-- A turn of the flow around an iteration that finds a detach: setup is next (R289, R391). -/
theorem opRunFlow_detached {s t : State} {reads : Nat}
    (h : evalOp (opPollIteration reads) (setCtl (.flow s.cfg.role 0) s) = .ok false t) :
    evalOp (opRunFlow reads) s = .ok () (setCtl (.setup s.cfg.role 0) t) := by
  simp only [opRunFlow, evalOp_bind, evalOp_cfg, evalOp_seq, evalOp_modify, h, Bool.false_eq_true, if_false]

/-- A turn of the flow around an iteration that ends early ends with it (R391). -/
theorem opRunFlow_exit {s t : State} {x : Exit} {reads : Nat}
    (h : evalOp (opPollIteration reads) (setCtl (.flow s.cfg.role 0) s) = .exit x t) :
    evalOp (opRunFlow reads) s = .exit x t := by
  simp only [opRunFlow, evalOp_bind, evalOp_cfg, evalOp_seq, evalOp_modify, h]

/-- `POLL_ITERATION` that completes in its own step. -/
theorem exec_pollIteration_ok {s t : State} {attached : Bool}
    (h : evalOp (opPollIteration (scanReads s)) s = .ok attached t) :
    exec .pollIteration s = .next (setResult (.attached attached) t) := by
  change runScan (some .pollIteration) .attached (opPollIteration (scanReads s)) s = _
  rw [runScan_ended (fun u => by rw [h]; exact nofun), runOp, h, conclude_ok]

/-- `POLL_ITERATION` that is cancelled. -/
theorem exec_pollIteration_cancel {s t : State} (h : evalOp (opPollIteration (scanReads s)) s = .exit .cancel t) :
    exec .pollIteration s = .next (catchCancel t) := by
  change runScan (some .pollIteration) .attached (opPollIteration (scanReads s)) s = _
  rw [runScan_ended (fun u => by rw [h]; exact nofun), runOp, h, conclude_exit, takeExit_cancel]

/-- `RUN_FLOW` that completes in its own step. -/
theorem exec_runFlow_ok {s t : State} (h : evalOp (opRunFlow (scanReads s)) s = .ok () t) :
    exec .runFlow s = .next (setResult .unit t) := by
  change runScan none (fun _ => .unit) (opRunFlow (scanReads s)) s = _
  rw [runScan_ended (fun u => by rw [h]; exact nofun), runOp, h, conclude_ok]

/-- `RUN_FLOW` that is cancelled. -/
theorem exec_runFlow_cancel {s t : State} (h : evalOp (opRunFlow (scanReads s)) s = .exit .cancel t) :
    exec .runFlow s = .next (catchCancel t) := by
  change runScan none (fun _ => .unit) (opRunFlow (scanReads s)) s = _
  rw [runScan_ended (fun u => by rw [h]; exact nofun), runOp, h, conclude_exit, takeExit_cancel]

/-! ## A detach ends the iteration (R286, R289) -/

/-- What an iteration that ends in a detach leaves: the pin is gone, no stop signal was sampled, and the event is last. -/
structure EndsDetached (s t : State) : Prop where
  ses : t.ses = { s.ses with ccPin := .none }
  stops : t.stops = s.stops
  ctl : t.ctl = s.ctl
  lastError : t.lastError = s.lastError
  trace : ∃ ps, Does s t (ps ++ [.emit .detached])

/-- An iteration with CompChange pending and no pin to find (R286, R288, R289). -/
theorem opPollIteration_detaches {s : State} (reads : Nat) (henv : s.env = []) (hrx : s.phy.rx = [])
    (hpin : intPin s.phy = true) (hchange : s.phy.intI.getLsbD 5 = true) (hwf : Memory.wf s.phy.regs = true)
    (hmap : RegsMapped s.phy.regs) (hcfg : checkConfig s.cfg = true)
    (hnone : StrategyPin (roleDetect s.cfg s.cfg.role) s.phy.cc1 s.phy.cc2 = .none) :
    ∃ t, evalOp (opPollIteration reads) s = .ok false t ∧ EndsDetached s t := by
  have hint : evalOp opIntPhase (status1Read s) = evalOp opDetachCheck (intReported (status1Read s)) := by
    rw [opIntPhase_asserted (s := status1Read s) henv hpin, opIntStep_quiet (s := status1Read s) henv]
    exact congrArg (evalOp · _) (if_pos hchange)
  obtain ⟨t, hcheck, hblock, hses, hgrows⟩ := opDetachCheck_detaches (s := intReported (status1Read s))
    ⟨.of_quiet henv, hwf, hmap⟩ (.of_quiet henv) hcfg hnone
  refine ⟨emitEvent .detached (updSes (storePin .none) t), ?_, ?_, hblock.stops, hblock.ctl, hblock.lastError, ?_⟩
  · simp only [opPollIteration, evalOp_seq, opRxStep_empty henv hrx, evalOp_bind, hint, hcheck, Bool.false_eq_true, if_false,
      evalOp_pure]
  · exact congrArg (storePin .none) hses
  · have hreported : s.trace <+: (intReported (status1Read s)).trace := by
      simp [intReported, emitAll, intRead, status1Read]
    obtain ⟨ps, htrace⟩ := hreported.trans hgrows
    exact ⟨ps, by rw [Does, emitEvent_trace, updSes_trace, ← htrace, List.append_assoc]⟩

/-- Settles O45: the check's run; then the iteration it ends, alone and in a turn of the flow. -/
theorem detachIsFoundAndEndsTheIteration : Obligations.DetachIsFoundAndEndsTheIteration := by
  refine ⟨fun s hbus hl hwf hmap hcfg => ?_, fun s henv hrx hpin hchange hwf hmap hcfg hnone => ?_⟩
  · obtain ⟨u, t, hrun, h⟩ := opDetachCheck_settles ⟨hbus, hwf, hmap⟩ hl hcfg rfl
    generalize hfound : StrategyPin _ _ _ = pin at hrun h
    have hexec : exec .detachCheck s = .next (setResult (.attached (decide (pin ≠ .none)))
        (emitAll (detachEvents pin) (updSes (storePin pin) t))) := congrArg (conclude _) hrun
    have hdiag : t.diag = s.diag := h.all.diag.trans (List.append_nil _)
    refine ⟨_, pin, hexec, by rw [← roleDetect_eq]; exact hfound.symm, congrArg (storePin pin) h.all.ses, rfl,
      congrArg (· ++ detachEvents pin) hdiag, h.all.regs,
      h.all.block.trans ⟨rfl, rfl, rfl, rfl, rfl, rfl, rfl, rfl, rfl, rfl⟩,
      fun hq => ⟨?_, h.tx, (h.all.latches hq).trans (.of_phy rfl)⟩⟩
    exact h.rx.trans (by rw [envTick_quiet (h.before.quiet hq), h.emptied])
  · rw [← roleDetect_eq] at hnone
    constructor
    · obtain ⟨t, hrun, h⟩ := opPollIteration_detaches (scanReads s) henv hrx hpin hchange hwf hmap hcfg hnone
      exact ⟨_, exec_pollIteration_ok hrun, rfl, h.ses, h.stops, h.ctl, h.trace⟩
    · obtain ⟨t, hrun, h⟩ := opPollIteration_detaches (s := setCtl (.flow s.cfg.role 0) s) (scanReads s) henv hrx hpin
        hchange hwf hmap hcfg hnone
      exact ⟨_, exec_runFlow_ok (opRunFlow_detached hrun), rfl, h.ses, h.stops, h.lastError, h.trace⟩

/-! ## Quiet turns (R282, R348, R391) -/

/-- Settles O55: a quiet iteration both ways, alone and in a turn of the flow. -/
theorem quietTurnsGoOnOrPause : Obligations.QuietTurnsGoOnOrPause := by
  refine ⟨fun s henv hrx hpin hover => ?_, fun s henv hrx hpin hrole => ?_⟩
  · have hrun := opPollIteration_quiet (scanReads s) henv hrx hpin hover
    have hdoes : Does s (turned (status1Read s)) ([Prim.rd 0x41 [status1Byte s.cfg s.phy]] ++
        s.ses.sentLog.map (fun r => Prim.emit (.sent r)) ++ [Prim.wait s.cfg.pollSleep]) := by
      simp [Does, turned, logDrained, emitAll, status1Read]
    cases hstop : s.stops.headD false with
    | false =>
      rw [hstop, if_neg Bool.false_ne_true] at hrun
      exact ⟨_, exec_pollIteration_ok hrun, rfl, rfl, fun _ _ => rfl, ⟨rfl, rfl⟩,
        ⟨rfl, rfl, rfl, rfl, rfl, rfl, rfl, rfl, rfl⟩, rfl, turned_lastError _, hdoes, fun _ => ⟨rfl, turned_ctl _⟩,
        nofun⟩
    | true =>
      rw [hstop, if_pos rfl] at hrun
      exact ⟨_, exec_pollIteration_cancel hrun, rfl, rfl, fun _ _ => rfl, ⟨rfl, rfl⟩,
        ⟨rfl, rfl, rfl, rfl, rfl, rfl, rfl, rfl, rfl⟩, rfl, turned_lastError _, hdoes, nofun, fun _ => ⟨rfl, rfl⟩⟩
  · have hrun := opPollIteration_quiet (s := setCtl (.flow s.cfg.role 0) s) (scanReads s) henv hrx hpin (.inl hrole)
    cases hstop : s.stops.headD false with
    | false =>
      rw [setCtl_stops, hstop, if_neg Bool.false_ne_true] at hrun
      exact ⟨_, exec_runFlow_ok (opRunFlow_attached hrun), rfl, fun _ _ => rfl, ⟨rfl, rfl⟩,
        fun _ => congrArg (Ctl.flow · 0) hrole, nofun⟩
    | true =>
      rw [setCtl_stops, hstop, if_pos rfl] at hrun
      exact ⟨_, exec_runFlow_cancel (opRunFlow_exit hrun), rfl, fun _ _ => rfl, ⟨rfl, rfl⟩, nofun, fun _ => rfl⟩

/-! ## The end-to-end scenario (R314) -/

/-- The vector's one data object: 5 V, 1.5 A. -/
def vectorPdo : Word32 := wordOf 0x96 0x90 0x01 0x00

/-- The header bits of the vector's message. -/
def vectorBits : MsgBits := headerBits .primary 0x11 0xA1

/-- The vector's frame is Source_Capabilities with that object (R314). -/
theorem vector_message :
    buildMessage .primary (decodeHeader .primary 0x11 0xA1) [vectorPdo] = messageOf vectorBits 1 [vectorPdo] := rfl

/-- The policy takes the vector's object for 5 V (R313, R314). -/
theorem vector_choice : selectPdoForVoltage [.fixed ⟨5000, 1500, 0, 0⟩] 5 = some (0, 1500) := rfl

/-- The first Request of a session for the vector's choice, with the vector's configuration, is the vector's frame
(R314). -/
theorem vector_request {s : State} (hrole : s.cfg.role = .sink) (hrev : s.cfg.rev = 2)
    (hbits : s.cfg.sinkRoleBits = (0, 0)) : CommandFrame s 0 2 (wordBytes (requestWord 0 1500)) =
      [0x12, 0x12, 0x12, 0x13, 0x86, 0x10, 0x82, 0x96, 0x58, 0x02, 0x10, 0xFF, 0x14, 0xFE, 0xA1] := by
  simp only [CommandFrame, RoleBits, hrole, hrev, hbits, if_true]
  rfl

/-- A receive step that finds Source_Capabilities, with a queued answer that can be encoded, sends the Request and reports
the message (R283, R290, R291). -/
theorem opRxStep_requests {s : State} {b0 b1 : Byte} {b : MsgBits} {w : Word32} {ws : List Word32} {crc rest : List Byte}
    {index current reads : Nat} {more : List (Option (Nat × Nat))} (henv : s.env = []) (hreads : 0 < reads)
    (hmessage : buildMessage .primary (decodeHeader .primary b0 b1) (w :: ws) = messageOf b 1 (w :: ws))
    (hsop : b.sop = .primary) (hobjs : (w :: ws).length = (headerCount b0).toNat) (hcrc : crc.length = 4)
    (hr : s.phy.rx = 0xE0 :: b0 :: b1 :: ((w :: ws).flatMap wordBytes ++ crc ++ rest))
    (hcfg : checkConfig s.cfg = true) (hrole : s.cfg.role = .sink) (hroom : TxRoom 15 s)
    (hselects : s.selects = some (index, current) :: more) (hindex : index < (w :: ws).length)
    (hmod : current % 10 = 0) (hmax : current ≤ 10230) :
    ∃ t, evalOp (opRxStep reads) s = .ok () (emitEvent (.received (messageOf b 1 (w :: ws))) t) ∧
      Sends (frameRead 0xE0 b0 b1 (w :: ws) crc rest s) t 2 (wordBytes (requestWord index current)) ∧
      t.ses.selectedProfile = some (.sink index current) ∧ t.ses.sinkState = .requestSent ∧ t.selects = more ∧
      t.stops = s.stops ∧ t.env = [] := by
  have hcount : (w :: ws).length ≤ 7 := by rw [hobjs]; exact Nat.le_of_lt_succ (headerCount b0).isLt
  have hpdos : (parsePdoList (w :: ws)).length = (w :: ws).length := List.length_map _
  obtain ⟨p, hrequest, hsends⟩ := opSinkSendRequest_sends (s := frameRead 0xE0 b0 b1 (w :: ws) crc rest s)
    (pdos := parsePdoList (w :: ws)) henv hcfg hroom hselects (hpdos ▸ hcount) (hpdos ▸ hindex) hmod hmax
  have hdispatch := (opDispatch_sourceCapabilities (s := frameRead 0xE0 b0 b1 (w :: ws) crc rest s) hsop hcount
    hrole).trans hrequest
  refine ⟨_, ?_, hsends, rfl, rfl, rfl, rfl, henv⟩
  rw [opRxStep_frame henv rfl hreads hobjs hcrc hr, hmessage, opHandle, evalOp_seq_ok hdispatch, evalOp_emit]

/-- The interrupt pin depends on the registers and the latches alone (R85). -/
theorem intPin_of_sends {s t : State} {type : BitVec 5} {d : List Byte} (h : Sends s t type d) :
    intPin t.phy = intPin s.phy := by
  simp only [intPin, pendingUnmasked, h.regs _ List.not_mem_nil, h.latches.intA, h.latches.intB, h.latches.intI]

/-- The receive step on the vector's frame sends the vector's Request (R314). -/
theorem opRxStep_vector {s : State} {crc : List Byte} {reads : Nat} (henv : s.env = []) (hreads : 0 < reads)
    (hcfg : checkConfig s.cfg = true) (hrole : s.cfg.role = .sink) (hrev : s.cfg.rev = 2)
    (hbits : s.cfg.sinkRoleBits = (0, 0)) (hroom : TxRoom 15 s) (hid : s.ses.msgId = none)
    (hrx : s.phy.rx = [0xE0, 0x11, 0xA1, 0x96, 0x90, 0x01, 0x00] ++ crc) (hcrc : crc.length = 4)
    (hselects : s.selects = [some (0, 1500)]) :
    ∃ t, evalOp (opRxStep reads) s = .ok () (emitEvent (.received (messageOf vectorBits 1 [vectorPdo])) t) ∧
      Sends (frameRead 0xE0 0x11 0xA1 [vectorPdo] crc [] s) t 2 (wordBytes (requestWord 0 1500)) ∧
      t.phy.tx = s.phy.tx ++
        [0x12, 0x12, 0x12, 0x13, 0x86, 0x10, 0x82, 0x96, 0x58, 0x02, 0x10, 0xFF, 0x14, 0xFE, 0xA1] ∧
      t.ses.msgId = some 0 ∧ t.ses.selectedProfile = some (.sink 0 1500) ∧ t.ses.sinkState = .requestSent ∧
      t.selects = [] ∧ t.stops = s.stops ∧ t.env = [] := by
  have hframe : s.phy.rx = 0xE0 :: 0x11 :: 0xA1 :: ([vectorPdo].flatMap wordBytes ++ crc ++ []) := by
    rw [hrx, List.append_nil]; rfl
  obtain ⟨t, hstep, hsends, hleft⟩ := opRxStep_requests henv hreads vector_message rfl rfl hcrc hframe hcfg hrole hroom
    hselects (by decide) (by decide) (by decide)
  have hunset : (frameRead 0xE0 0x11 0xA1 [vectorPdo] crc [] s).ses.msgId = none := hid
  have hvector := vector_request (s := frameRead 0xE0 0x11 0xA1 [vectorPdo] crc [] s) hrole hrev hbits
  have hmsgId := hsends.id
  have htx := hsends.tx
  rw [hunset, nextId] at hmsgId htx
  rw [hvector] at htx
  exact ⟨t, hstep, hsends, htx, hmsgId, hleft⟩

/-- Settles O59: the receive step on the frame; the iteration then goes on. -/
theorem endToEndSinkScenario : Obligations.EndToEndSinkScenario := by
  intro s crc henv hcfg hrole hrev hbits hroom hpin hid hrx hcrc hselects hstop
  have hreads : 0 < scanReads s := Nat.lt_of_le_of_lt (Nat.zero_le _) (rx_length_lt_scanReads s)
  rw [vector_choice] at hselects
  obtain ⟨t, hstep, hsends, htx, hmsgId, hprofile, hstate, hmore, hstops, hquiet⟩ :=
    opRxStep_vector henv hreads hcfg hrole hrev hbits hroom hid hrx hcrc hselects
  have hrun := opPollIteration_turns hstep hquiet ((intPin_of_sends hsends).trans hpin)
    (.inl ((congrArg Cfg.role hsends.cfg).trans hrole))
  rw [emitEvent_stops, hstops, hstop, if_neg Bool.false_ne_true] at hrun
  exact ⟨_, exec_pollIteration_ok hrun, hstate, htx, hmsgId,
    (congrArg Session.selectedProfile (turned_ses _)).trans hprofile, rfl, hsends.rx, (turned_selects _).trans hmore,
    fun a ha => hsends.regs a ha⟩

end Sys2Proof.Machine
end

section
/-! Proofs of the statements of `43_negotiation.md`, third part: the setup of a source (O58). -/

namespace Sys2Proof.Machine

/-! ## Writes of whole registers -/

/-- The map's row of Mask1 (R44). -/
def mask1 : RegInfo := ⟨0x0A, .readWrite, 0x00, 0x00, 0x00⟩

/-- The map's row of Power (R45). -/
def power : RegInfo := ⟨0x0B, .readWrite, 0x01, 0x00, 0x00⟩

/-- The map's row of Maska (R47). -/
def maska : RegInfo := ⟨0x0E, .readWrite, 0x00, 0x00, 0x00⟩

/-- The map's row of Maskb (R48). -/
def maskb : RegInfo := ⟨0x0F, .readWrite, 0x00, 0x00, 0x00⟩

/-- The map's row of Control3 (R43): an `R/W` register with SEND_HARD_RESET. -/
def control3 : RegInfo := ⟨0x09, .readWrite, 0x06, 0x40, 0x00⟩

/-- The schedule's changes before a transaction. -/
theorem drives_envTick (s : State) : Drives 1 [] [] s (envTick s) :=
  drives_of_tick (moved_envTick s) (envTick_env s) rfl

/-- A write of an `R/W` register other than Control3. -/
theorem writeReg_drives (op : Byte) {addr : Byte} (w : Byte) {info : RegInfo} {s : State} (hs : Responsive s)
    (hi : regInfo addr.toNat = some info) (ha : info.access = .readWrite) (h43 : addr ≠ 0x43) (h9 : addr ≠ 0x09) :
    ∃ t, evalOp (writeReg op addr w) s = .ok () t ∧ Drives 1 [addr.toNat] [] s t ∧
      regRead t.phy.regs addr.toNat = storedBits info w := by
  have htick := drives_envTick s
  have hwf := (htick.responsive hs).wf
  have hwrite := drives_written (changed := [addr.toNat]) (w := w) hwf hi ha h9 fun h => absurd (.head _) h
  have hrun := writeReg_rw (op := op) (v := w) hs.bus.fate hi ha h43
  rw [← envTick_regs s, ← envTick_cfg s] at hrun
  refine ⟨_, hrun, (htick.mono (List.nil_subset _)).trans hwrite, ?_⟩
  exact (congrArg (regRead · _) (written_regs _ _ _ _ _)).trans (regRead_regWrite_same _ _ _ hwf)

/-- The value `CONFIG_PHY` writes to Control3 sends no Hard Reset, so nothing goes on the cable (R43, R162). -/
theorem writeControl3_drives {s : State} (hs : Responsive s) :
    ∃ t, evalOp (writeReg 0x0C 0x09 (BitVec.ofNat 8 s.cfg.phyControl3.val)) s = .ok () t ∧ Drives 1 [0x09] [] s t := by
  have hquiet : (BitVec.ofNat 8 s.cfg.phyControl3.val).getLsbD 6 = false := by simp
  generalize BitVec.ofNat 8 s.cfg.phyControl3.val = w at hquiet
  have hrun := writeReg_rw (op := 0x0C) (addr := 0x09) (v := w) (info := control3) hs.bus.fate rfl rfl (by decide)
  have hphy : ∀ p, writeAction s.cfg 0x09 w p = p := fun p => by
    change ({ p with wire := if w.getLsbD 6 then p.wire ++ [.hardReset] else p.wire } : Phy) = p
    rw [hquiet]; rfl
  rw [hphy, ← envTick_regs s] at hrun
  refine ⟨_, hrun, ((drives_envTick s).mono (List.nil_subset _)).trans (n := 0) ⟨?_, rfl, (List.append_nil _).symm, rfl,
    fun h => Memory.wf_regWrite _ _ _ h, fun h => h.regWrite rfl rfl w, fun a ha => ?_, Nat.le_refl _,
    fun _ => ⟨rfl, rfl⟩, fun _ => ⟨rfl, rfl, rfl, rfl, rfl, rfl, rfl, rfl, rfl⟩⟩⟩
  · exact ⟨rfl, rfl, rfl, rfl, rfl, rfl, rfl, rfl, rfl, rfl⟩
  · exact regRead_regWrite_other _ _ (by simpa using ha)

/-! ## The operations of setup (R152, R153, R159 to R162) -/

section Operations

variable {s : State}

/-- `POWER_ON` writes Power (R152). -/
theorem opPowerOn_drives (hs : Responsive s) :
    ∃ t, evalOp opPowerOn s = .ok () t ∧ Drives 1 [0x0B] [] s t ∧ regRead t.phy.regs 0x0B = 0x0F :=
  writeReg_drives 0x03 (addr := 0x0B) 0x0F (info := power) hs rfl rfl (by decide) (by decide)

/-- `UNMASK_INT` clears the three masks and INT_MASK (R153). -/
theorem opUnmaskInt_drives (hs : Responsive s) :
    ∃ t, evalOp opUnmaskInt s = .ok () t ∧ Drives 5 [0x06, 0x0A, 0x0E, 0x0F] [] s t ∧
      regRead t.phy.regs 0x06 = storedBits control0 (regRead s.phy.regs 0x06 &&& ~~~0x20) := by
  obtain ⟨a, ha, da, -⟩ := writeReg_drives 0x04 (addr := 0x0A) 0x00 (info := mask1) hs rfl rfl (by decide) (by decide)
  have hsa := da.responsive hs
  obtain ⟨b, hb, db, -⟩ := writeReg_drives 0x04 (addr := 0x0E) 0x00 (info := maska) hsa rfl rfl (by decide) (by decide)
  have hsb := db.responsive hsa
  obtain ⟨c, hc, dc, -⟩ := writeReg_drives 0x04 (addr := 0x0F) 0x00 (info := maskb) hsb rfl rfl (by decide) (by decide)
  obtain ⟨d, -, hd, dd, hreg, -, -⟩ := rmw_drives (changed := [0x06]) 0x04 (clear := 0x20) (set := 0x00) (addr := 0x06)
    (info := control0) (dc.responsive hsb) rfl rfl (by decide) (by decide) rfl fun h => absurd (.head _) h
  refine ⟨d, ?_, (((da.mono (by decide)).trans (db.mono (by decide))).trans (dc.mono (by decide))).trans
    (dd.mono (by decide)), ?_⟩
  · simp only [opUnmaskInt, evalOp_seq, ha, hb, hc, hd]
  · have hkept : regRead c.phy.regs 0x06 = regRead s.phy.regs 0x06 := by
      rw [dc.regs _ (by decide), db.regs _ (by decide), da.regs _ (by decide)]
    rw [← hkept]
    exact hreg.trans (congrArg (storedBits control0) BitVec.or_zero)

/-- `SET_TERMINATION` of a source switches the pull-ups on and nothing else (R159). -/
theorem opSetTermination_source_drives (hs : Responsive s) :
    ∃ t, evalOp (opSetTermination .source) s = .ok () t ∧ Drives 1 [0x02] [] s t ∧ regRead t.phy.regs 0x02 = 0xC0 :=
  writeReg_drives 0x09 (addr := 0x02) 0xC0 (info := switches0) hs rfl rfl (by decide) (by decide)

/-- `SET_HOST_CURRENT` sets HOST_CUR (R161). -/
theorem opSetHostCurrent_drives {code : Nat} (hs : Responsive s) (hcode : code ≤ 3) :
    ∃ t, evalOp (opSetHostCurrent code) s = .ok () t ∧ Drives 2 [0x06] [] s t ∧
      regRead t.phy.regs 0x06 =
        storedBits control0 ((regRead s.phy.regs 0x06 &&& ~~~0x0C) ||| BitVec.ofNat 8 (code * 4)) := by
  obtain ⟨t, -, hrun, hd, hreg, -, -⟩ := rmw_drives (changed := [0x06]) 0x0B (clear := 0x0C)
    (set := BitVec.ofNat 8 (code * 4)) (addr := 0x06) (info := control0) hs rfl rfl (by decide) (by decide) rfl
    fun h => absurd (.head _) h
  refine ⟨t, ?_, hd, hreg⟩
  rw [opSetHostCurrent, decide_eq_true hcode, opRequire_true]
  exact hrun

/-- `CONFIG_PHY` writes Control3 and, with SOP′ enabled, Control1 (R162). -/
theorem opConfigPhy_drives (hs : Responsive s) :
    ∃ n t, evalOp opConfigPhy s = .ok () t ∧ Drives n [0x07, 0x09] [] s t := by
  obtain ⟨a, ha, da⟩ := writeControl3_drives hs
  have da' : Drives 1 [0x07, 0x09] [] s a := da.mono (by decide)
  simp only [opConfigPhy, evalOp_bind, evalOp_cfg, evalOp_seq, ha]
  cases s.cfg.enableSopPrime with
  | false => exact ⟨1, a, rfl, da'⟩
  | true =>
    obtain ⟨t, -, hrun, hd, -, -, -⟩ := rmw_drives (changed := [0x07, 0x09]) 0x0C (clear := 0x00) (set := 0x01)
      (addr := 0x07) (info := control1) (da.responsive hs) rfl rfl (by decide) (by decide) rfl
      fun h => absurd (.head _) h
    exact ⟨1 + 2, t, hrun, da'.trans hd⟩

/-- `SET_ROLE_BITS` writes Switches1 (R160). -/
theorem opSetRoleBits_drives (role : Role) (hs : Responsive s) :
    ∃ t, evalOp (opSetRoleBits role) s = .ok () t ∧ Drives 1 [0x03] [] s t ∧
      regRead t.phy.regs 0x03 = storedBits switches1 (roleSwitches s.cfg role) :=
  writeReg_drives 0x0A (addr := 0x03) (roleSwitches s.cfg role) (info := switches1) hs rfl rfl (by decide) (by decide)

/-- The state after the PHY's software reset (R69). -/
def phyWasReset (s : State) : State := logPrim (.wr 0x0C [0x01]) { s with phy := phyReset s.cfg s.phy }

/-- `RESET`, nothing else happening (R150). -/
theorem opReset_quiet (henv : s.env = []) : evalOp opReset s = .ok () (phyWasReset s) := by
  have hwrite : phyWrite 0x0C [0x01] s = .done () { s with phy := phyReset s.cfg s.phy } := rfl
  simp only [opReset, writeReg, evalOp_memWrite, busWrite, (BusCompletes.of_quiet henv).fate, envTick_quiet henv, hwrite,
    answered]
  rfl

end Operations

/-! ## Setup, step by step (R384, R385, R390) -/

/-- A step of setup that completes leads to the next one (R390). -/
theorem opSetupFrom_step {role : Role} {k : Nat} {step : Op Unit} {rest : List (Op Unit)} {s t : State}
    (h : evalOp step (setCtl (.setup role k) s) = .ok () t) :
    evalOp (opSetupFrom role k (step :: rest)) s = evalOp (opSetupFrom role (k + 1) rest) t := by
  simp only [opSetupFrom, evalOp_seq, evalOp_modify, h]

/-- Where setup stands after `RESET`, nothing else happening: the session is new, the registers are in form, and the
configuration and the levels are those of the state it began in. -/
structure Preparing (s t : State) : Prop where
  cfg : t.cfg = s.cfg
  quiet : t.env = []
  ses : t.ses = Session.fresh
  wf : Memory.wf t.phy.regs = true
  mapped : RegsMapped t.phy.regs
  cc1 : t.phy.cc1 = s.phy.cc1
  cc2 : t.phy.cc2 = s.phy.cc2

section Preparing

variable {s t u : State}

theorem Preparing.responsive (h : Preparing s t) : Responsive t := ⟨.of_quiet h.quiet, h.wf, h.mapped⟩

/-- A step's control state is no part of it. -/
theorem Preparing.setCtl (h : Preparing s t) (c : Ctl) : Preparing s (setCtl c t) :=
  ⟨h.cfg, h.quiet, h.ses, h.wf, h.mapped, h.cc1, h.cc2⟩

/-- The driver's operations keep it. -/
theorem Preparing.drives {n : Nat} {changed : List Nat} {es : List Event} (h : Preparing s t)
    (d : Drives n changed es t u) : Preparing s u := by
  obtain ⟨h1, h2⟩ := d.levels (.of_quiet h.quiet)
  exact ⟨d.block.cfg.trans h.cfg, d.quiet h.quiet, d.ses.trans h.ses, d.wf h.wf, d.mapped h.mapped, h1.trans h.cc1,
    h2.trans h.cc2⟩

/-- After session creation and `RESET` setup stands there, with the registers at their reset values. -/
theorem preparing_reset (henv : s.env = []) (role : Role) :
    Preparing s (phyWasReset (Machine.setCtl (.setup role 1)
      (updSes (fun _ => Session.fresh) (Machine.setCtl (.setup role 0) s)))) :=
  ⟨rfl, henv, rfl, rfl, nofun, rfl, rfl⟩

end Preparing

/-- The host-current field after `UNMASK_INT` and `SET_HOST_CURRENT` on a register at its reset value (R40, R153, R161). -/
theorem hostCurrent_after_reset {code : Nat} (h : code ≤ 3) :
    storedBits control0 ((storedBits control0 (0x24 &&& ~~~0x20) &&& ~~~0x0C) ||| BitVec.ofNat 8 (code * 4)) =
      BitVec.ofNat 8 code <<< 2 := by
  have all : ∀ c : Fin 4, storedBits control0 ((storedBits control0 (0x24 &&& ~~~0x20) &&& ~~~0x0C) |||
      BitVec.ofNat 8 (c * 4)) = BitVec.ofNat 8 c <<< 2 := by decide
  exact all ⟨code, Nat.lt_succ_of_le h⟩

/-- Setup of a source up to the detection of the pin: the pull-ups are on and the host current is set (R385). -/
theorem sourceSetup_prepares {s : State} (henv : s.env = []) (hcode : s.cfg.hostCurrentCode ≤ 3) :
    ∃ t, evalOp (opSetupFrom .source 0 (sourceSetup s.cfg)) s = evalOp (opSetupFrom .source 8
        [opFindCcStep (roleDetect s.cfg .source), opResetMsgId, opSourceAdvertise]) t ∧
      Preparing s t ∧ regRead t.phy.regs 0x02 = 0xC0 ∧
      regRead t.phy.regs 0x06 = BitVec.ofNat 8 s.cfg.hostCurrentCode <<< 2 := by
  have hcreate : evalOp opCreateSession (setCtl (.setup .source 0) s) = .ok () _ := rfl
  have hreset := opReset_quiet
    (s := setCtl (.setup .source 1) (updSes (fun _ => Session.fresh) (setCtl (.setup .source 0) s))) henv
  have p1 := preparing_reset henv .source
  generalize ha : phyWasReset _ = a at hreset p1
  have hinitial : regRead a.phy.regs 0x06 = 0x24 := by rw [← ha]; rfl
  obtain ⟨b, hpower, d2, -⟩ := opPowerOn_drives (p1.setCtl (.setup .source 2)).responsive
  have p2 := (p1.setCtl (.setup .source 2)).drives d2
  obtain ⟨c, hunmask, d3, hmask⟩ := opUnmaskInt_drives (p2.setCtl (.setup .source 3)).responsive
  have p3 := (p2.setCtl (.setup .source 3)).drives d3
  obtain ⟨d, hpull, d4, hswitch⟩ := opSetTermination_source_drives (p3.setCtl (.setup .source 4)).responsive
  have p4 := (p3.setCtl (.setup .source 4)).drives d4
  obtain ⟨e, hcurrent, d5, hhost⟩ := opSetHostCurrent_drives (p4.setCtl (.setup .source 5)).responsive hcode
  have p5 := (p4.setCtl (.setup .source 5)).drives d5
  obtain ⟨n, f, hconfig, d6⟩ := opConfigPhy_drives (p5.setCtl (.setup .source 6)).responsive
  have p6 := (p5.setCtl (.setup .source 6)).drives d6
  obtain ⟨g, hrole, d7, -⟩ := opSetRoleBits_drives .source (p6.setCtl (.setup .source 7)).responsive
  refine ⟨g, ?_, (p6.setCtl (.setup .source 7)).drives d7, ?_, ?_⟩
  · rw [sourceSetup, opSetupFrom_step hcreate, opSetupFrom_step hreset, opSetupFrom_step hpower,
      opSetupFrom_step hunmask, opSetupFrom_step hpull, opSetupFrom_step hcurrent, opSetupFrom_step hconfig,
      opSetupFrom_step hrole]
  · rw [d7.regs _ (by decide), setCtl_phy, d6.regs _ (by decide), setCtl_phy, d5.regs _ (by decide), setCtl_phy, hswitch]
  · rw [d7.regs _ (by decide), setCtl_phy, d6.regs _ (by decide), setCtl_phy, hhost, setCtl_phy, d4.regs _ (by decide),
      setCtl_phy, hmask, setCtl_phy, d2.regs _ (by decide), setCtl_phy, hinitial, hostCurrent_after_reset hcode]

/-- The measure mux of a source's Switches0 is on the pin settled on (R163, R385). -/
theorem muxOn_settlePin {cfg : Cfg} (hdefault : cfg.defaultPin ≠ .none) (pin : CCPin) :
    muxOn (settlePin cfg pin) 0xC0 = if pin = .cc1 ∨ (pin = .none ∧ cfg.defaultPin = .cc1) then 0xC4 else 0xC8 := by
  have on : ∀ p : CCPin, p ≠ .none → muxOn (pinNumber p) 0xC0 = if p = .cc1 then 0xC4 else 0xC8 := by
    intro p hp
    cases p with
    | none => exact absurd rfl hp
    | cc1 => rfl
    | cc2 => rfl
  cases pin with
  | none => simpa [settlePin] using on cfg.defaultPin hdefault
  | cc1 => simpa [settlePin] using on .cc1 nofun
  | cc2 => simpa [settlePin] using on .cc2 nofun

/-- The detection step of a source's setup: the pin is found and stored, both FIFOs are empty (R163, R385). -/
theorem opFindCcStep_finds {s t : State} {detect : Detect} (hp : Preparing s t) (hf : FindsPin detect t) :
    ∃ u, evalOp (opFindCcStep detect) t =
        .ok () (updSes (storePin (StrategyPin detect s.phy.cc1 s.phy.cc2)) u) ∧ Preparing s u ∧
      u.phy.rx = [] ∧ u.phy.tx = [] ∧ KeepsRegs [0x02, 0x03] t u ∧
      regRead u.phy.regs 0x02 =
        muxOn (settlePin s.cfg (StrategyPin detect s.phy.cc1 s.phy.cc2)) (regRead t.phy.regs 0x02) := by
  obtain ⟨v, u, hrun, h⟩ := opFindCc_settles hf
  rw [hp.cc1, hp.cc2] at hrun h
  have hrx : u.phy.rx = [] := h.rx.trans (by rw [envTick_quiet (h.before.quiet hp.quiet), h.emptied])
  refine ⟨u, ?_, hp.drives h.all, hrx, h.tx, h.all.regs, by rw [h.mux, hp.cfg]⟩
  simp only [opFindCcStep, evalOp_bind, hrun, evalOp_pure]

/-- A session's first advertisement into an empty TX FIFO (R300, R385). -/
theorem opSourceAdvertise_first {s : State} (henv : s.env = []) (hcfg : checkConfig s.cfg = true)
    (hrole : s.cfg.role = .source) (htx : s.phy.tx = []) (hid : s.ses.msgId = none) (hlog : s.ses.sentLog = []) :
    ∃ t, evalOp opSourceAdvertise s = .ok () t ∧
      t.ses = { s.ses with msgId := some 0, sentLog := [⟨1, .data, 0, capsData s.cfg⟩] } ∧
      t.phy.tx = CommandFrame s 0 1 (capsData s.cfg) ∧ t.phy.rx = s.phy.rx ∧ KeepsRegs [] s t := by
  have hroom : TxRoom 39 s := by
    rw [TxRoom, htx, List.length_nil, Nat.zero_add]; exact s.cfg.txFifoBytes.property
  obtain ⟨p, hrun, hsends⟩ := opSourceAdvertise_sends henv hcfg hrole hroom
  obtain ⟨hmin, -, -⟩ := checkConfig_advertisedPdos hcfg hrole
  have hdata : (capsData s.cfg).length ≠ 0 := by
    rw [capsData, flatMap_wordBytes_length, List.length_map]; omega
  have hframe := hsends.tx
  have hrecord := hsends.log
  have hcount := hsends.id
  rw [htx, List.nil_append, hid, nextId] at hframe
  rw [hlog, List.nil_append, hid, nextId, if_neg hdata] at hrecord
  rw [hid, nextId] at hcount
  refine ⟨_, hrun, ?_, hframe, hsends.rx, hsends.regs⟩
  rw [← hcount, ← hrecord]
  rfl

/-- The last steps of a source's setup: the counter UNSET, the first advertisement, the flow (R385, R390). -/
theorem sourceSetup_advertises {s u : State} (pin : CCPin) (hcfg : checkConfig s.cfg = true)
    (hrole : s.cfg.role = .source) (hp : Preparing s u) (htx : u.phy.tx = []) :
    ∃ t, evalOp (opSetupFrom .source 9 [opResetMsgId, opSourceAdvertise]) (updSes (storePin pin) u) =
        .ok () (setCtl (.flow .source 0) t) ∧
      t.ses = { Session.fresh with
        ccPin := pin, msgId := some 0, sentLog := [⟨1, .data, 0, capsData s.cfg⟩] } ∧
      t.phy.tx = CommandFrame s 0 1 (capsData s.cfg) ∧ t.phy.rx = u.phy.rx ∧ KeepsRegs [] u t := by
  have hunset : evalOp opResetMsgId (setCtl (.setup .source 9) (updSes (storePin pin) u)) =
      .ok () (updSes unsetId (setCtl (.setup .source 9) (updSes (storePin pin) u))) := rfl
  obtain ⟨t, hsend, hses, hframe, hrx, hregs⟩ := opSourceAdvertise_first
    (s := setCtl (.setup .source 10) (updSes unsetId (setCtl (.setup .source 9) (updSes (storePin pin) u))))
    hp.quiet (hp.cfg ▸ hcfg) (hp.cfg ▸ hrole) htx rfl (congrArg Session.sentLog hp.ses)
  simp only [setCtl_ses, updSes_ses, hp.ses, setCtl_cfg, updSes_cfg, hp.cfg] at hses hframe
  refine ⟨t, ?_, hses, ?_, hrx, hregs⟩
  · rw [opSetupFrom_step hunset, opSetupFrom_step hsend]; rfl
  · rw [hframe]; exact commandFrame_congr hp.cfg _ _ _

/-- Settles O58: the preparation, the detection, the advertisement. -/
theorem sourceSetupSendsTheFirstAdvertisement : Obligations.SourceSetupSendsTheFirstAdvertisement := by
  intro s henv hcfg hrole
  obtain ⟨-, hdefault, hcode⟩ := checkConfig_findCc hcfg
  obtain ⟨-, -, hvalid⟩ := checkConfig_advertisedPdos hcfg hrole
  obtain ⟨a, hprepare, pa, hpull, hcurrent⟩ := sourceSetup_prepares henv hcode
  have pa' := pa.setCtl (.setup .source 8)
  have hfinds := findsPin_roleDetect pa'.responsive (.of_quiet pa'.quiet) (pa'.cfg ▸ hcfg)
  rw [pa'.cfg, hrole] at hfinds
  obtain ⟨u, hfind, pu, hrx, htx, hkept, hmux⟩ := opFindCcStep_finds pa' hfinds
  generalize hpin : StrategyPin (roleDetect s.cfg .source) s.phy.cc1 s.phy.cc2 = pin at hfind hmux
  obtain ⟨t, hadvertise, hses, hframe, hempty, hregs⟩ := sourceSetup_advertises pin hcfg hrole pu htx
  have hrun : evalOp opSetup s = .ok () (setCtl (.flow .source 0) t) := by
    rw [opSetup, evalOp_bind, evalOp_cfg]
    simp only [hrole, setupSteps, hprepare]
    rw [opSetupFrom_step hfind, hadvertise]
  have hexec : exec .setup s = .next (setResult .unit (setCtl (.flow .source 0) t)) :=
    congrArg (conclude fun _ => .unit) hrun
  refine ⟨_, pin, s.cfg.advertisedPdos.map capsWord, hexec, rfl, hpin.symm, hses, map_parsedPdo_capsWord hvalid, hframe,
    hempty.trans hrx, ?_, ?_⟩
  · exact (hregs _ List.not_mem_nil).trans ((hkept _ (by decide)).trans hcurrent)
  · rw [setCtl_phy, hpull, muxOn_settlePin hdefault] at hmux
    exact (hregs _ List.not_mem_nil).trans hmux

end Sys2Proof.Machine
end

section
/-! Proofs of the statements of `60_exceptions.md`: what an instruction that ends in `Fault` records (O9), what a step in
`Fault` runs (O1, O8), block reset (O8), and cancellation recovery (O56). -/

namespace Sys2Proof.Machine

/-! ## Being in `Fault` (R351) -/

/-- Nothing runs in exactly the control states that are `Fault`. -/
theorem halted_eq_false_iff {c : Ctl} : halted c = false ↔ ∀ e, c ≠ .fault e := by
  cases c with
  | fault e => exact ⟨nofun, fun h => absurd rfl (h e)⟩
  | setup role k | flow role phase | pause k => exact ⟨fun _ _ => nofun, fun _ => rfl⟩

/-! ## More operations that end as a reaction does -/

theorem IsReaction.forEach {α : Type} {f : α → Op Unit} (hf : ∀ a, IsReaction (f a)) (as : List α) :
    IsReaction (opForEach f as) := by
  induction as with
  | nil => exact .pure ()
  | cons a rest ih => exact .seq (hf a) ih

/-! ### Transceiver Driver -/

theorem IsReaction.writeReg (op addr v : Byte) : IsReaction (writeReg op addr v) := .memWrite _ _ _

theorem IsReaction.unmaskInt : IsReaction opUnmaskInt :=
  .seq (.writeReg _ _ _) (.seq (.writeReg _ _ _) (.seq (.writeReg _ _ _) (.rmw _ _ _ _)))

theorem IsReaction.setHostCurrent (code : Nat) : IsReaction (opSetHostCurrent code) := .require _ _ (.rmw _ _ _ _)

theorem IsReaction.setRoleBits (role : Role) : IsReaction (opSetRoleBits role) := .bind .cfg fun _ => .writeReg _ _ _

theorem IsReaction.configPhy : IsReaction opConfigPhy := by
  refine .bind .cfg fun cfg => .seq (.writeReg _ _ _) ?_
  cases cfg.enableSopPrime with
  | false => exact .pure ()
  | true => exact .rmw _ _ _ _

theorem IsReaction.enableTxSwitch (pin : Nat) : IsReaction (opEnableTxSwitch pin) :=
  .require _ _ (.bind .cfg fun _ => .rmw _ _ _ _)

theorem IsReaction.readInt : IsReaction opReadInt :=
  .bind (.readReg _ _) fun _ => .bind (.readReg _ _) fun _ => .bind (.readReg _ _) fun _ => .pure _

theorem IsReaction.readRxState : IsReaction opReadRxState := .bind (.readReg _ _) fun _ => .pure _

theorem IsReaction.readFifo (n : Nat) : IsReaction (opReadFifo n) := by
  rw [opReadFifo]
  split
  · exact .pure _
  · exact .memRead _ _ _

theorem IsReaction.sendPacket (p : List Byte) : IsReaction (opSendPacket p) :=
  .require _ _ (.seq (.memWrite _ _ _) (.seq (.memWrite _ _ _) (.memWrite _ _ _)))

/-! ### Sequencer and negotiation -/

theorem IsReaction.resetMsgId : IsReaction opResetMsgId := .updSes _

theorem IsReaction.nextMsgId : IsReaction opNextMsgId := fun s => by
  rw [evalOp_nextMsgId]; exact reacts_updSes (fun ses => { ses with msgId := some (nextId s.ses.msgId) }) s

theorem IsReaction.drainLog : IsReaction opDrainLog :=
  .bind (fun s => reacts_updSes id s) fun log => .seq (.forEach (fun _ => .emit _) log) (.updSes _)

theorem IsReaction.detachCheck : IsReaction opDetachCheck := by
  refine .bind .cfg fun _ => .bind (.findCc _) fun pin => ?_
  split
  · exact .seq (.emit _) (.pure _)
  · exact .pure _

theorem IsReaction.intStep : IsReaction opIntStep := by
  refine .bind .readInt fun _ => .seq (.emit _) (.seq (.forEach (fun _ => .emit _) _) ?_)
  split
  · exact .detachCheck
  · exact .pure _

theorem IsReaction.sinkOnAccept (m : Message) : IsReaction (opSinkOnAccept m) := .seq (.tell _) (.updSes _)

theorem IsReaction.sourceAdvertise : IsReaction opSourceAdvertise :=
  .bind .cfg fun _ => .bind (.codec _ _) fun _ => .sendCommand _ _

/-- The cadence counts in the session alone (R307). -/
theorem reacts_countIteration (s : State) : Reacts s (countIteration s) := by
  rw [countIteration]
  split
  · exact reacts_updSes _ s
  · split
    · exact reacts_updSes _ s
    · exact reacts_updSes id s

theorem IsReaction.advCadence : IsReaction opAdvCadence := by
  refine .bind reacts_countIteration fun due => ?_
  cases due with
  | false => exact .pure ()
  | true => exact .sourceAdvertise

theorem IsReaction.handle (m : Message) : IsReaction (opHandle m) := .seq (.dispatch m) (.emit _)

theorem IsReaction.intPhase : IsReaction opIntPhase := by
  refine .bind (fun s => (moved_envTick s).reacts) fun pin => ?_
  cases pin with
  | false => exact .pure _
  | true => exact .intStep

theorem IsReaction.cadencePhase : IsReaction opCadencePhase := by
  refine .bind .cfg fun cfg => ?_
  cases cfg.role with
  | sink => exact .pure ()
  | source => exact .advCadence

theorem IsReaction.vdmRow (w : Word32) : IsReaction (opVdmRow w) := by
  refine .bind .cfg fun cfg => .seq ?_ (.pure _)
  cases cfg.role with
  | sink => exact .vdmRespond _
  | source => exact .pure ()

/-! ### Setup -/

theorem IsReaction.findCcStep (d : Detect) : IsReaction (opFindCcStep d) := .bind (.findCc d) fun _ => .pure ()

/-- Every step of a setup ends as a reaction does: `Setup(ROLE, k)` and the flow are written around them (R390). -/
theorem setupSteps_reactions (cfg : Cfg) (role : Role) : ∀ m ∈ setupSteps cfg role, IsReaction m := by
  cases role with
  | sink =>
    simp only [setupSteps, sinkSetup, List.forall_mem_cons, List.not_mem_nil, false_imp_iff, implies_true, and_true]
    exact ⟨.updSes _, .writeReg _ _ _, .writeReg _ _ _, .unmaskInt, .writeReg _ _ _, .configPhy, .setRoleBits _,
      .findCcStep _, .updSes _⟩
  | source =>
    simp only [setupSteps, sourceSetup, List.forall_mem_cons, List.not_mem_nil, false_imp_iff, implies_true, and_true]
    exact ⟨.updSes _, .writeReg _ _ _, .writeReg _ _ _, .unmaskInt, .writeReg _ _ _, .setHostCurrent _, .configPhy,
      .setRoleBits _, .findCcStep _, .updSes _, .sourceAdvertise⟩

/-! ## Operations do not enter `Fault` themselves -/

/-- A run that completed, or is left under way, stands outside `Fault`. Where an error or a cancellation ended it, the
control state is the one the exit is taken to (R350, R348). -/
def EndsOutsideFault {α : Type} : Res α → Prop
  | .ok _ t => halted t.ctl = false
  | .exit .unfinished t => halted t.ctl = false
  | _ => True

/-- From outside `Fault` the operation ends outside `Fault`, whatever the schedule. -/
def StaysOutsideFault {α : Type} (m : Op α) : Prop := ∀ s, halted s.ctl = false → EndsOutsideFault (evalOp m s)

theorem StaysOutsideFault.bind {α β : Type} {m : Op α} {f : α → Op β} (hm : StaysOutsideFault m)
    (hf : ∀ a, StaysOutsideFault (f a)) : StaysOutsideFault (opBind m f) := by
  intro s hs
  have hend := hm s hs
  rw [evalOp_bind]
  cases hrun : evalOp m s with
  | ok a t => rw [hrun] at hend; exact hf a t hend
  | exit x t => rw [hrun] at hend; cases x <;> exact hend
  | halt h => exact trivial

theorem StaysOutsideFault.seq {α β : Type} {m : Op α} {k : Op β} (hm : StaysOutsideFault m) (hk : StaysOutsideFault k) :
    StaysOutsideFault (opSeq m k) := hm.bind fun _ => hk

/-- A reaction leaves the control state alone, or ends by an error. -/
theorem IsReaction.staysOutsideFault {α : Type} {m : Op α} (hm : IsReaction m) : StaysOutsideFault m := by
  intro s hs
  have hend := hm s
  cases hrun : evalOp m s with
  | ok a t => rw [hrun] at hend; exact (congrArg halted hend.ctl).trans hs
  | exit x t => rw [hrun] at hend; obtain ⟨e, rfl⟩ := hend; exact trivial
  | halt h => exact trivial

theorem StaysOutsideFault.pure {α : Type} (a : α) : StaysOutsideFault (opPure a) := (IsReaction.pure a).staysOutsideFault

theorem StaysOutsideFault.cfg : StaysOutsideFault opCfg := IsReaction.cfg.staysOutsideFault

theorem StaysOutsideFault.modify {f : State → State} (hf : ∀ s, halted s.ctl = false → halted (f s).ctl = false) :
    StaysOutsideFault (opModify f) := hf

/-- A change of the codec state leaves the control state alone (R31). -/
theorem StaysOutsideFault.changeScan (f : State → Option Scan) :
    StaysOutsideFault (opModify fun s => { s with scan := f s }) := .modify fun _ hs => hs

/-- A control state other than `Fault` is written. -/
theorem StaysOutsideFault.setCtl {c : Ctl} (hc : halted c = false) : StaysOutsideFault (opModify (setCtl c)) :=
  .modify fun _ _ => hc

/-! ### Receiving -/

theorem StaysOutsideFault.codecRead (n : Nat) : StaysOutsideFault (opCodecRead n) :=
  .bind (IsReaction.readFifo n).staysOutsideFault fun bs => .seq (.changeScan _) (.pure bs)

theorem StaysOutsideFault.scan (reads : Nat) : StaysOutsideFault (opScan reads) := by
  induction reads with
  | zero => exact fun _ hs => hs
  | succ reads ih =>
    refine .bind (.codecRead 1) fun bs => ?_
    dsimp only
    cases markerOf (bs.headD 0) with
    | some m => exact .pure m
    | none => exact .seq (IsReaction.emit _).staysOutsideFault ih

theorem StaysOutsideFault.parseBody (sop : Sop) (hdr : Header) : StaysOutsideFault (opParseBody sop hdr) :=
  .bind (.codecRead _) fun _ => .seq (.changeScan _) <| .seq (.bind (.codecRead _) fun _ => .pure ()) <|
    .seq (.changeScan _) (.pure _)

theorem StaysOutsideFault.parseFrame (sop : Sop) : StaysOutsideFault (opParseFrame sop) :=
  .seq (.changeScan _) <| .bind (.codecRead 2) fun _ => .seq (.changeScan _) (.parseBody _ _)

theorem StaysOutsideFault.parseMessage (reads : Nat) : StaysOutsideFault (opParseMessage reads) := by
  refine .seq (.changeScan _) (.bind (.scan reads) fun m => ?_)
  cases m with
  | noFrame => exact .seq (.changeScan _) (.pure _)
  | frame sop => exact .bind (.parseFrame sop) fun _ => .pure _

theorem StaysOutsideFault.marker (sop : Sop) : StaysOutsideFault (opMarker sop) := .seq (.changeScan _) (.parseFrame sop)

theorem StaysOutsideFault.received (bits : MsgBits) (n : BitVec 3) (t : BitVec 5) :
    StaysOutsideFault (opReceived bits n t) :=
  .seq (.changeScan _) <| .bind (.parseBody _ _) fun m => .seq (IsReaction.handle m).staysOutsideFault (.pure m)

theorem StaysOutsideFault.rxStep (reads : Nat) : StaysOutsideFault (opRxStep reads) := by
  refine .bind IsReaction.readRxState.staysOutsideFault fun st => ?_
  split
  · exact .pure ()
  · refine .bind (.parseMessage reads) fun r => ?_
    cases r with
    | none => exact .pure ()
    | some m => exact (IsReaction.handle m).staysOutsideFault

/-! ### The iteration and the supervisor's operations -/

/-- The stop sample cancels the flow or lets it go on (R348). -/
theorem StaysOutsideFault.stopPhase : StaysOutsideFault opStopPhase := by
  refine .bind (fun _ hs => hs) fun stop => ?_
  cases stop with
  | false => exact .pure ()
  | true => exact fun _ _ => trivial

theorem StaysOutsideFault.pollIteration (reads : Nat) : StaysOutsideFault (opPollIteration reads) := by
  refine .seq (.rxStep reads) (.bind IsReaction.intPhase.staysOutsideFault fun attached => ?_)
  have sleep : IsReaction opSleepPhase := .bind .cfg fun _ => .wait _
  cases attached with
  | false => exact .pure _
  | true =>
    exact .seq IsReaction.cadencePhase.staysOutsideFault <| .seq IsReaction.drainLog.staysOutsideFault <|
      .seq sleep.staysOutsideFault <| .seq .stopPhase (.pure _)

theorem StaysOutsideFault.runFlow (reads : Nat) : StaysOutsideFault (opRunFlow reads) := by
  refine .bind .cfg fun _ => .seq (.setCtl rfl) (.bind (.pollIteration reads) fun attached => ?_)
  cases attached with
  | false => exact .setCtl rfl
  | true => exact .pure ()

theorem StaysOutsideFault.setupFrom (role : Role) (k : Nat) {steps : List (Op Unit)} (h : ∀ m ∈ steps, IsReaction m) :
    StaysOutsideFault (opSetupFrom role k steps) := by
  induction steps generalizing k with
  | nil => exact .setCtl rfl
  | cons m rest ih =>
    obtain ⟨hm, hrest⟩ := List.forall_mem_cons.1 h
    exact .seq (.setCtl rfl) (.seq hm.staysOutsideFault (ih (k + 1) hrest))

theorem StaysOutsideFault.setup : StaysOutsideFault opSetup :=
  .bind .cfg fun cfg => .setupFrom cfg.role 0 (setupSteps_reactions cfg cfg.role)

theorem StaysOutsideFault.blockReset : StaysOutsideFault opBlockReset := by
  refine .seq (.modify fun _ hs => hs) (.bind .cfg fun cfg => ?_)
  cases checkConfig cfg with
  | false => exact (IsReaction.raise _).staysOutsideFault
  | true => exact .setCtl rfl

theorem StaysOutsideFault.cancelRecover : StaysOutsideFault opCancelRecover :=
  .seq (IsReaction.emit _).staysOutsideFault <| .seq (.setCtl rfl) <| .bind .cfg fun _ =>
    .seq (IsReaction.wait _).staysOutsideFault (.setCtl rfl)

/-! ## An instruction that ends in `Fault` (R350) -/

/-- A next state in `Fault` holds the error in `lastError`, and its event is the last one and the last primitive (R350). -/
def RecordsItsFault (o : Host.Outcome State Fault Refusal) : Prop :=
  ∀ t e, o = .next t → t.ctl = .fault e →
    t.lastError = some e ∧ (∃ d, t.diag = d ++ [.fault e]) ∧ ∃ p, t.trace = p ++ [.emit (.fault e)]

/-- Outside `Fault` there is nothing to record. -/
theorem RecordsItsFault.of_outside {t : State} (h : halted t.ctl = false) : RecordsItsFault (.next t) := by
  rintro t e ⟨⟩ hfault
  exact absurd hfault (halted_eq_false_iff.1 h e)

/-- Surfacing is the recording of the error. -/
theorem surface_recordsItsFault (e : Err) (s : State) : RecordsItsFault (.next (surface e s)) := by
  rintro t e' ⟨⟩ hfault
  cases hfault
  exact ⟨rfl, ⟨_, rfl⟩, ⟨_, rfl⟩⟩

/-- Of the ends of a run only an error that surfaces leads into `Fault`. -/
theorem conclude_recordsItsFault {α : Type} (value : α → Value) {r : Res α} (h : EndsOutsideFault r) :
    RecordsItsFault (conclude value r) := by
  cases r with
  | ok a t => exact .of_outside h
  | exit x t =>
    cases x with
    | error e => exact surface_recordsItsFault e t
    | cancel => exact .of_outside rfl
    | unfinished => exact .of_outside h
  | halt x =>
    cases x with
    | fault f => rintro t e ⟨⟩
    | refused r => rintro t e ⟨⟩

theorem StaysOutsideFault.records {α : Type} {m : Op α} (hm : StaysOutsideFault m) (value : α → Value) {s : State}
    (hs : halted s.ctl = false) : RecordsItsFault (runOp value m s) :=
  conclude_recordsItsFault value (hm s hs)

theorem IsReaction.records {α : Type} {m : Op α} (hm : IsReaction m) (value : α → Value) {s : State}
    (hs : halted s.ctl = false) : RecordsItsFault (runOp value m s) := hm.staysOutsideFault.records value hs

/-- An operation left under way is outside `Fault` too (log 18). -/
theorem StaysOutsideFault.scanRecords {α : Type} {m : Op α} (hm : StaysOutsideFault m) (r : Option Running)
    (value : α → Value) {s : State} (hs : halted s.ctl = false) : RecordsItsFault (runScan r value m s) := by
  by_cases h : ∃ t, evalOp m s = .exit .unfinished t
  · obtain ⟨t, hrun⟩ := h
    have hend := hm s hs
    rw [hrun] at hend
    rw [runScan_unfinished hrun]
    exact .of_outside hend
  · rw [runScan_ended (not_exists.1 h)]
    exact hm.records value hs

/-- Every instruction is one operation that stays outside `Fault`, run to its end. -/
theorem exec_recordsItsFault (i : Instr) {s : State} (hs : halted s.ctl = false) : RecordsItsFault (exec i s) := by
  unfold exec
  cases i with
  | reset | resetPd | powerOn | setTermination => exact (IsReaction.writeReg _ _ _).records _ hs
  | unmaskInt => exact IsReaction.unmaskInt.records _ hs
  | measureCc => exact (IsReaction.measureCc _).records _ hs
  | currentLevel => exact (IsReaction.bind (.readReg _ _) fun _ => .pure _).records _ hs
  | detectSink debug => exact (IsReaction.detect (.sink debug)).records _ hs
  | detectSource => exact (IsReaction.require _ _ (.bind (.bothLevels _) fun _ => .pure _)).records _ hs
  | setRoleBits => exact (IsReaction.setRoleBits _).records _ hs
  | setHostCurrent => exact (IsReaction.setHostCurrent _).records _ hs
  | configPhy => exact IsReaction.configPhy.records _ hs
  | findCc => exact (IsReaction.findCc _).records _ hs
  | enableTxSwitch => exact (IsReaction.enableTxSwitch _).records _ hs
  | flushRx | flushTx | setWake => exact (IsReaction.rmw _ _ _ _).records _ hs
  | readInt => exact IsReaction.readInt.records _ hs
  | readRxState => exact IsReaction.readRxState.records _ hs
  | readFifo => exact (IsReaction.readFifo _).records _ hs
  | sendPacket => exact (IsReaction.sendPacket _).records _ hs
  | tokSync1 | tokSync2 | tokPacksym | tokJamCrc | tokEop | tokTxoff | tokTxon =>
    exact (IsReaction.memWrite _ _ _).records _ hs
  -- The codec's pure operations (R223) and the rows of data objects that are parsed only (log 3).
  | decodeInt | parsePdo | parsePdoList | parseVdmHeader | parseRequest | typeLookup | selectPdoForVoltage | header
  | pdoFixed | pdoBattery | pdoVariable | pdoPps | vdmStructured | vdmUnstructured | rdoFixed =>
    exact (IsReaction.pure _).records _ hs
  | encodeHeader | encodeCommand | buildFixedPdo | buildPdo | buildVdmHeader | buildVdmUnstructured | buildRequest =>
    exact (IsReaction.codec _ _).records _ hs
  | resetMsgId => exact IsReaction.resetMsgId.records (fun _ => .unit) hs
  | nextMsgId => exact IsReaction.nextMsgId.records _ hs
  | sendCommand => exact (IsReaction.sendCommand _ _).records _ hs
  | drainLog => exact IsReaction.drainLog.records _ hs
  | dispatch => exact (IsReaction.dispatch _).records _ hs
  | intStep => exact IsReaction.intStep.records _ hs
  | detachCheck => exact IsReaction.detachCheck.records _ hs
  | sinkOnSourceCaps | sinkSendRequest => exact (IsReaction.sinkSendRequest _).records _ hs
  | sinkOnAccept psRdy bits => exact (IsReaction.sinkOnAccept (acceptMessage psRdy bits)).records (fun _ => .unit) hs
  | sinkOnVdm => exact (IsReaction.sinkOnVdm _).records _ hs
  | vdmDiscoverIdentity | vdmDiscoverSvids | vdmDiscoverModes | vdmEnterMode | vdmDpStatus | vdmDpConfigure =>
    exact (IsReaction.vdmRespond _).records _ hs
  | sourceAdvertise => exact IsReaction.sourceAdvertise.records _ hs
  | sourceOnRequest => exact (IsReaction.sourceOnRequest _).records _ hs
  | sourceAccept => exact (IsReaction.sourceAccept _ _).records _ hs
  | sourcePsRdy => exact (IsReaction.sourcePsRdy _ _).records _ hs
  | sourceReject pos => exact (IsReaction.sourceReject pos.toNat).records (fun _ => .unit) hs
  | advCadence => exact IsReaction.advCadence.records _ hs
  | onSoftReset => exact IsReaction.onSoftReset.records _ hs
  | vdmCtReq | vdmCtAck | vdmCtNak | vdmCtBusy | vdmCmdDiscoverIdentity | vdmCmdDiscoverSvids | vdmCmdDiscoverModes
  | vdmCmdEnterMode | vdmCmdExitMode | vdmCmdAttention | vdmCmdDpStatusUpdate | vdmCmdDpConfigure =>
    exact (IsReaction.vdmRow _).records _ hs
  -- The operations that write the codec state or the control state themselves.
  | parseMessage => exact (StaysOutsideFault.parseMessage _).scanRecords _ _ hs
  | rxStep => exact (StaysOutsideFault.rxStep _).scanRecords _ _ hs
  | pollIteration => exact (StaysOutsideFault.pollIteration _).scanRecords _ _ hs
  | runFlow => exact (StaysOutsideFault.runFlow _).scanRecords _ _ hs
  | blockReset => exact StaysOutsideFault.blockReset.records _ hs
  | setup => exact StaysOutsideFault.setup.records _ hs
  | cancelRecover => exact StaysOutsideFault.cancelRecover.records (fun _ => .unit) hs
  | rxSop | rxSopPrime => exact (StaysOutsideFault.marker _).records _ hs
  | rxEmptyMarker => exact (StaysOutsideFault.changeScan _).records _ hs
  | ctrlReserved0 | ctrlGoodcrc | ctrlGotomin | ctrlAccept | ctrlReject | ctrlPing | ctrlPsRdy | ctrlGetSourceCap
  | ctrlGetSinkCap | ctrlDrSwap | ctrlPrSwap | ctrlVconnSwap | ctrlWait | ctrlSoftReset | ctrlDataReset
  | ctrlDataResetComplete | ctrlNotSupported | ctrlGetSourceCapExtended | ctrlGetStatus | ctrlFrSwap | ctrlGetPpsStatus
  | ctrlGetCountryCodes | ctrlGetSinkCapExtended | ctrlGetSourceInfo | ctrlUnknown
  | dataReserved0 | dataSourceCapabilities | dataRequest | dataBist | dataSinkCapabilities | dataBatteryStatus | dataAlert
  | dataGetCountryInfo | dataEnterUsb | dataEprRequest | dataEprMode | dataSourceInfo | dataRevision | dataReserved13
  | dataReserved14 | dataVendorDefined | dataUnknown =>
    exact (StaysOutsideFault.received _ _ _).records _ hs

/-- Settles O9: outside `Fault` at its start, an instruction is in `Fault` at its end by surfacing only. -/
theorem faultRecordsItsError : Obligations.FaultRecordsItsError := fun i _ t e hexec hfault houtside =>
  exec_recordsItsFault i (halted_eq_false_iff.2 houtside) t e hexec hfault

/-! ## What a step runs (R351, R388) -/

/-- An invocation of a decoded instruction is what a step runs. -/
theorem step_invoked {s : State} {inv : Invocation} {i : Instr} (hport : s.port = some inv)
    (hdecode : decode inv.format inv.bytes = .ok i) : step s = runInvoked i s := by
  simp only [step, hport, runInvocation, hdecode]

/-- Outside `Fault` every instruction runs. -/
theorem runInvoked_outside (i : Instr) {s : State} (h : halted s.ctl = false) : runInvoked i s = exec i (takePort s) := by
  rw [runInvoked, h, Bool.false_and, if_neg Bool.false_ne_true]

/-- Block reset runs in every control state. -/
theorem runInvoked_blockReset (s : State) : runInvoked .blockReset s = exec .blockReset (takePort s) := by
  simp [runInvoked]

/-- In `Fault` no other instruction runs. -/
theorem runInvoked_halted {i : Instr} {s : State} {e : Err} (hctl : s.ctl = .fault e) (hi : i ≠ .blockReset) :
    runInvoked i s = .fault .halted := by
  simp [runInvoked, hctl, halted, hi]

/-- Settles O1: outside `Fault`, for block reset, and in `Fault` for any other instruction. -/
theorem stepRunsTheInvokedInstruction : Obligations.StepRunsTheInvokedInstruction := by
  intro s inv i hport hdecode
  rw [step_invoked hport hdecode]
  refine ⟨fun houtside => runInvoked_outside i (halted_eq_false_iff.2 houtside), ?_, ?_⟩
  · rintro rfl
    exact runInvoked_blockReset s
  · rintro ⟨e, hctl⟩ hi
    exact runInvoked_halted hctl hi

/-! ## The supervisor in `Fault` (R388) -/

/-- In `Fault` no operation is under way, an invoked one neither. -/
theorem opUnderWay_halted (reads : Nat) {s : State} {e : Err} (hctl : s.ctl = .fault e) :
    opUnderWay reads s = .halt (.fault .halted) := by
  cases hrunning : s.running with
  | none => simp only [opUnderWay, hrunning, hctl, opSuper]
  | some r => simp only [opUnderWay, hrunning, hctl, halted, if_true]

/-- Nor at any position of one: the supervisor halts. -/
theorem superStep_halted {s : State} {e : Err} (hctl : s.ctl = .fault e) : superStep s = .fault .halted := by
  have hop : currentOp s = .halt (.fault .halted) := by
    cases hnotes : s.notes with
    | nil => simp only [currentOp, opLeft, hnotes, opUnderWay_halted _ hctl]
    | cons n notes => simp only [currentOp, opLeft, hnotes, opUnderWay_halted _ hctl, opAfter]
  rw [superStep, hop]
  rfl

/-- Without block reset in the port a step in `Fault` answers no next state. -/
theorem step_stays_in_fault {s : State} {e : Err} (hctl : s.ctl = .fault e)
    (hport : ∀ inv, s.port = some inv → decode inv.format inv.bytes ≠ .ok .blockReset) (t : State) : step s ≠ .next t := by
  cases hp : s.port with
  | none => rw [step, hp]; simp only [superStep_halted hctl]; exact nofun
  | some inv =>
    cases hd : decode inv.format inv.bytes with
    | ok i =>
      have hi : i ≠ .blockReset := fun h => hport inv hp (h ▸ hd)
      rw [step_invoked hp hd, runInvoked_halted hctl hi]
      exact nofun
    | error err => rw [step_of_decode_error hp hd]; exact nofun

/-! ## Block reset (R351, R389) -/

/-- The state in which block reset checks the configuration: no error, an empty diagnostic stream. -/
def errorCleared (s : State) : State := { s with lastError := none, diag := [] }

/-- With a configuration that passes the check, block reset ends at step 0 of setup (R381, R389). -/
theorem exec_blockReset_passes {s : State} (h : checkConfig s.cfg = true) :
    exec .blockReset s = .next (setResult .unit (setCtl (.setup s.cfg.role 0) (errorCleared s))) := by
  have hrun : evalOp opBlockReset s = .ok () (setCtl (.setup s.cfg.role 0) (errorCleared s)) := by
    simp only [opBlockReset, errorCleared, evalOp_seq, evalOp_bind, evalOp_modify, evalOp_cfg, h, opRequire_true]
  exact congrArg (conclude fun _ => .unit) hrun

/-- With one the check refuses, CallerError(BadConfig) surfaces (R381, R382). -/
theorem exec_blockReset_refuses {s : State} (h : checkConfig s.cfg = false) :
    exec .blockReset s = .next (surface (.caller .badConfig 0x60) (errorCleared s)) := by
  have hrun : evalOp opBlockReset s = .exit (.error (.caller .badConfig 0x60)) (errorCleared s) := by
    simp only [opBlockReset, errorCleared, evalOp_seq, evalOp_bind, evalOp_modify, evalOp_cfg, h, opRequire_false,
      evalOp_raise]
  exact congrArg (conclude fun _ => .unit) hrun

/-- Settles O8: a step in `Fault` without and with block reset, then block reset by itself, with both outcomes of the
check. -/
theorem faultIsLeftByBlockResetOnly : Obligations.FaultIsLeftByBlockResetOnly := by
  refine ⟨fun s e hctl => ⟨step_stays_in_fault hctl, fun inv hport hdecode hcfg => ?_⟩, fun s => ⟨fun hcfg => ?_,
    fun hcfg => ?_⟩⟩
  · rw [step_invoked hport hdecode, runInvoked_blockReset]
    exact ⟨_, exec_blockReset_passes (s := takePort s) hcfg, rfl, rfl, rfl⟩
  · exact ⟨_, exec_blockReset_passes hcfg, rfl, rfl, rfl, rfl, rfl, rfl⟩
  · exact ⟨_, exec_blockReset_refuses hcfg, rfl, rfl, rfl, rfl, rfl, rfl⟩

/-! ## Cancellation recovery (R352) -/

/-- The state after the report and the pause, before setup. -/
def cancelReported (s : State) : State :=
  logPrim (.wait s.cfg.cancelPause) (passTime s.cfg.cancelPause (setCtl (.pause 0) (emitEvent .cancelled s)))

/-- `CANCEL_RECOVER` reports, pauses and ends at step 0 of setup. -/
theorem exec_cancelRecover (s : State) :
    exec .cancelRecover s = .next (setResult .unit (setCtl (.setup s.cfg.role 0) (cancelReported s))) := by
  have hrun : evalOp opCancelRecover s = .ok () (setCtl (.setup s.cfg.role 0) (cancelReported s)) := by
    simp only [opCancelRecover, cancelReported, evalOp_seq, evalOp_bind, evalOp_emit, evalOp_modify, evalOp_cfg,
      evalOp_wait, setCtl_cfg, emitEvent_cfg]
  exact congrArg (conclude fun _ => .unit) hrun

/-- Settles O56: of the PHY the pause changes the comparator's settling time alone. -/
theorem cancelRecoverPausesThenSetsUp : Obligations.CancelRecoverPausesThenSetsUp := by
  intro s
  have htrace : Does s (cancelReported s) [.emit .cancelled, .wait s.cfg.cancelPause] :=
    List.append_assoc s.trace [.emit .cancelled] [.wait s.cfg.cancelPause]
  exact ⟨_, exec_cancelRecover s, rfl, rfl, htrace, rfl, rfl, ⟨rfl, rfl⟩, ⟨rfl, rfl, rfl, rfl, rfl, rfl, rfl, rfl, rfl⟩,
    rfl, rfl⟩

end Sys2Proof.Machine
end

section
/-! Proof of a statement of `70_reset_and_hazards.md`: the state after block reset (O5). -/

namespace Sys2Proof.Machine

/-- Every register of a PHY just powered on reads its reset value: its memory lists none. -/
theorem regRead_powerOn (a : Nat) : regRead Phy.powerOn.regs a = regReset a := rfl

/-- The reset values of the R/W registers and the Reset register (R386). -/
theorem regReset_values :
    [0x02, 0x03, 0x04, 0x06, 0x07, 0x08, 0x09, 0x0A, 0x0B, 0x0C, 0x0E, 0x0F].map regReset =
      [0x03, 0x20, 0x31, 0x24, 0x00, 0x02, 0x06, 0x00, 0x01, 0x00, 0x00, 0x00] := by decide

/-- Status1 with both FIFOs empty and no live status: RX_EMPTY and TX_EMPTY alone (R53). An RX FIFO of capacity 0 would be
full as well; for the TX FIFO its type excludes that. -/
theorem status1Byte_of_empty {cfg : Cfg} {p : Phy} (hrx : p.rx = []) (htx : p.tx = []) (hlive : p.status1 = 0)
    (hcap : 0 < cfg.rxFifoBytes) : status1Byte cfg p = 0x28 := by
  have hrxFull : ¬ cfg.rxFifoBytes ≤ 0 := Nat.not_le.mpr hcap
  have htxFull : ¬ cfg.txFifoBytes.val ≤ 0 := Nat.not_le.mpr (Nat.lt_of_lt_of_le (by decide) cfg.txFifoBytes.2)
  simp [status1Byte, hrx, htx, hlive, hrxFull, htxFull]

/-- Settles O5: the control state and the FIFOs by the definition, the registers by their reset values. -/
theorem resetLeavesSetupStepZero : Obligations.ResetLeavesSetupStepZero :=
  ⟨rfl, rfl, rfl, (List.map_congr_left fun a _ => regRead_powerOn a).trans regReset_values, rfl, rfl, rfl, rfl, rfl,
    status1Byte_of_empty rfl rfl rfl (by decide)⟩

end Sys2Proof.Machine
end
